-- ==== Sys2Proof/Word.lean ====
section
/-! DEFINITION. The two widths of the machine (00_scope.md R6, R8): a byte is 8 bits, a word is 16 bits. -/

namespace Sys2Proof

/-- 8 bits: registers, memory cells, the data path (R6, R8). -/
abbrev Byte := BitVec 8

/-- 16 bits: addresses and the program counter (R6, R8). -/
abbrev Word := BitVec 16

end Sys2Proof
end

