-- ==== Sys2Proof/Config.lean ====
section
/-! DEFINITION. What is fixed for a run: the named parameters of 00_scope.md R7 at the values the spec gives them, and
the values the spec leaves OPEN. The register maps of the VIA and the UART and the LCD's command patterns (VIA_REGMAP,
UART_REGMAP, R392) are written where they are used, in Machine/Via.lean, Machine/Uart.lean and Machine/Lcd.lean, and the
opcode map in Decode.lean. -/

namespace Sys2Proof.Config

/-- `JMP_IND_PAGE_WRAP` (D4), OPEN: a free value, nothing constrains it (log 5). -/
opaque jmpIndPageWrap : Bool

/-- `PIN_A_IN` (D21, R356, U3): the pin levels of port A at the n-th drawn access, a free value (log 4). -/
opaque pinAIn : Nat → Byte

/-- `PIN_B_IN` (D21, R356, U3): the pin levels of port B at the n-th drawn access, a free value (log 4). -/
opaque pinBIn : Nat → Byte

/-- `BIT_IMM_NV` (D5): BIT immediate writes N and V too (log 12). -/
def bitImmNV : Bool := true

/-- `UNMAPPED_READ` (D12, R70): the byte read from 0x8000-0xDFFF, the NOP opcode (log 12). -/
def unmappedRead : Byte := 0xEA

/-- `ROM_BUS_WRITABLE` (D13, R69): a bus write into the ROM region is discarded (log 12). -/
def romBusWritable : Bool := false

/-- `LCD_E_BIT`, `LCD_RW_BIT`, `LCD_RS_BIT` (D20, R410): bit numbers of port A (log 12). -/
def lcdEBit : Nat := 7
/-- See `lcdEBit`. -/
def lcdRwBit : Nat := 6
/-- See `lcdEBit`. -/
def lcdRsBit : Nat := 5

/-- `LCD_CURSOR_MOD` (D30, R49). -/
abbrev lcdCursorMod : Nat := 80

/-- `LCD_SHIFT_MOD` (D30, R49). -/
abbrev lcdShiftMod : Nat := 40

/-- `RESET_A` as `State.reset` has it (D11: OPEN; DESIGN CHOICE, log 1). -/
def resetA : Byte := 0x00
/-- `RESET_X` as `State.reset` has it (log 1). -/
def resetX : Byte := 0x00
/-- `RESET_Y` as `State.reset` has it (log 1). -/
def resetY : Byte := 0x00
/-- `RESET_SP` as `State.reset` has it (log 1). -/
def resetSP : Byte := 0x00
/-- `RESET_P` as `State.reset` has it (log 1): bit 5 is 1 by R25 and R34. -/
def resetP : Byte := 0x20
/-- `PC` between a reset and the boot step as `State.reset` has it (U5; DESIGN CHOICE, log 2). -/
def resetPC : Word := 0x0000

/-- What a byte of `RAM` or `ROM` that nothing has written reads as: `RAM_INIT`, `ROM_INIT` (D14: OPEN; DESIGN CHOICE,
log 3). -/
def unwrittenByte : Byte := 0x00

/-- `SIZE[op]` (R112, R113): the instruction sizes, one row per high hex digit. -/
def sizeTable : List Nat :=
  [1, 2, 2, 1, 2, 2, 2, 2, 1, 2, 1, 1, 3, 3, 3, 3] ++
  [2, 2, 2, 1, 2, 2, 2, 2, 1, 3, 1, 1, 3, 3, 3, 3] ++
  [3, 2, 2, 1, 2, 2, 2, 2, 1, 2, 1, 1, 3, 3, 3, 3] ++
  [2, 2, 2, 1, 2, 2, 2, 2, 1, 3, 1, 1, 3, 3, 3, 3] ++
  [1, 2, 2, 1, 2, 2, 2, 2, 1, 2, 1, 1, 3, 3, 3, 3] ++
  [2, 2, 2, 1, 2, 2, 2, 2, 1, 3, 1, 1, 3, 3, 3, 3] ++
  [1, 2, 2, 1, 2, 2, 2, 2, 1, 2, 1, 1, 3, 3, 3, 3] ++
  [2, 2, 2, 1, 2, 2, 2, 2, 1, 3, 1, 1, 3, 3, 3, 3] ++
  [2, 2, 2, 1, 2, 2, 2, 2, 1, 2, 1, 1, 3, 3, 3, 3] ++
  [2, 2, 2, 1, 2, 2, 2, 2, 1, 3, 1, 1, 3, 3, 3, 3] ++
  [2, 2, 2, 1, 2, 2, 2, 2, 1, 2, 1, 1, 3, 3, 3, 3] ++
  [2, 2, 2, 1, 2, 2, 2, 2, 1, 3, 1, 1, 3, 3, 3, 3] ++
  [2, 2, 2, 1, 2, 2, 2, 2, 1, 2, 1, 1, 3, 3, 3, 3] ++
  [2, 2, 2, 1, 2, 2, 2, 2, 1, 3, 1, 1, 3, 3, 3, 3] ++
  [2, 2, 2, 1, 2, 2, 2, 2, 1, 2, 1, 1, 3, 3, 3, 3] ++
  [2, 2, 2, 1, 2, 2, 2, 2, 1, 3, 1, 1, 3, 3, 3, 3]

/-- `SIZE[op]`. -/
def size (op : Byte) : Nat := sizeTable.getD op.toNat 1

/-- `CYCLES[op]` (R436): base cycle counts, metadata that no rule reads (log 20). -/
def cyclesTable : List Nat :=
  [7, 6, 2, 1, 5, 3, 5, 5, 3, 2, 2, 1, 6, 4, 6, 5] ++
  [2, 5, 5, 1, 5, 4, 6, 5, 2, 4, 2, 1, 6, 4, 6, 5] ++
  [6, 6, 2, 1, 3, 3, 5, 5, 4, 2, 2, 1, 4, 4, 6, 5] ++
  [2, 5, 5, 1, 4, 4, 6, 5, 2, 4, 2, 1, 4, 4, 6, 5] ++
  [6, 6, 2, 1, 3, 3, 5, 5, 3, 2, 2, 1, 3, 4, 6, 5] ++
  [2, 5, 5, 1, 4, 4, 6, 5, 2, 4, 3, 1, 8, 4, 6, 5] ++
  [6, 6, 2, 1, 3, 3, 5, 5, 4, 2, 2, 1, 6, 4, 6, 5] ++
  [2, 5, 5, 1, 4, 4, 6, 5, 2, 4, 4, 1, 6, 4, 6, 5] ++
  [3, 6, 2, 1, 3, 3, 3, 5, 2, 2, 2, 1, 4, 4, 4, 5] ++
  [2, 6, 5, 1, 4, 4, 4, 5, 2, 5, 2, 1, 4, 5, 5, 5] ++
  [2, 6, 2, 1, 3, 3, 3, 5, 2, 2, 2, 1, 4, 4, 4, 5] ++
  [2, 5, 5, 1, 4, 4, 4, 5, 2, 4, 2, 1, 4, 4, 4, 5] ++
  [2, 6, 2, 1, 3, 3, 5, 5, 2, 2, 2, 3, 4, 4, 6, 5] ++
  [2, 5, 5, 1, 4, 4, 6, 5, 2, 4, 3, 3, 4, 4, 7, 5] ++
  [2, 6, 2, 1, 3, 3, 5, 5, 2, 2, 2, 1, 4, 4, 6, 5] ++
  [2, 5, 5, 1, 4, 4, 6, 5, 2, 4, 4, 1, 4, 4, 7, 5]

/-- `CYCLES[op]`. -/
def cycles (op : Byte) : Nat := cyclesTable.getD op.toNat 0

end Sys2Proof.Config
end

