-- ==== Sys2Proof/Machine/State.lean ====
section
/-! DEFINITION. The state of the machine as plain data (10_state.md), the state after reset, and the reasons a call can
stop. Every field is named by a rule of 10_state.md, but for `pinDraws`, the model's own (log 4). -/

namespace Sys2Proof.Machine

/-- `ST`, the execution state (R31). -/
inductive ExecState where
  | booting
  | running
  | waiting
  | stopped
  deriving DecidableEq, Repr

/-- The bytes of `RAM` and `ROM` (R35) that differ from an unwritten byte, by bus address, in one canonical form
(`Memory.wf` in Machine/Memory.lean; log 7). -/
abbrev Memory := List Host.Cell

/-- The VIA's 13 registers (R37). -/
structure Via where
  /-- `ORA`: output latch of port A. -/
  ora : Byte
  /-- `ORB`: output latch of port B. -/
  orb : Byte
  /-- `DDRA`: direction register of port A, 1 = output. -/
  ddra : Byte
  /-- `DDRB`: direction register of port B, 1 = output. -/
  ddrb : Byte
  /-- `SR`: shift register, storage only (R39). -/
  sr : Byte
  /-- `ACR`: auxiliary control register, storage only. -/
  acr : Byte
  /-- `PCR`: peripheral control register, storage only. -/
  pcr : Byte
  /-- `IFR`: interrupt-flag register, storage only. -/
  ifr : Byte
  /-- `IER`: interrupt-enable register, storage only. -/
  ier : Byte
  /-- `T1C`: timer 1 current value; it does not count (R357). -/
  t1c : Word
  /-- `T1L`: timer 1 latch. -/
  t1l : Word
  /-- `T2C`: timer 2 current value; it does not count. -/
  t2c : Word
  /-- `T2L`: timer 2 latch; no bus index reaches it (C6). -/
  t2l : Word
  deriving DecidableEq, Repr

/-- The UART's nine registers (R42). -/
structure Uart where
  /-- `STAT`: status register (R372). -/
  stat : Byte
  /-- `CTRL`: control register (R380). -/
  ctrl : Byte
  /-- `CMD`: command register (R379). -/
  cmd : Byte
  /-- `TXCNT`: bits still to transmit (R43). -/
  txcnt : BitVec 4
  /-- `RXCNT`: bits received so far of the current byte (R43). -/
  rxcnt : BitVec 4
  /-- `TDR`: transmit data register. -/
  tdr : Byte
  /-- `TSR`: transmit shift register. -/
  tsr : Byte
  /-- `RDR`: receive data register. -/
  rdr : Byte
  /-- `RSR`: receive shift register. -/
  rsr : Byte
  deriving DecidableEq, Repr

/-- `BANK` (R47, R48): which RAM bank the LCD's address counter addresses. -/
inductive Bank where
  /-- 0: display-data RAM. -/
  | dd
  /-- 1: character-generator RAM. -/
  | cg
  deriving DecidableEq, Repr

/-- The display controller's state (R47); a 1-bit flag is a Bool (log 15). -/
structure Lcd where
  /-- `IR`: instruction register. -/
  ir : Byte
  /-- `DR`: data register. -/
  dr : Byte
  /-- `AC`: address counter, 0..127. -/
  ac : BitVec 7
  /-- `BANK`. -/
  bank : Bank
  /-- `F_ID`: true = increment. -/
  fId : Bool
  /-- `F_S`: shift the display on a data write. -/
  fS : Bool
  /-- `F_D`: display on. -/
  fD : Bool
  /-- `F_C`: cursor on. -/
  fC : Bool
  /-- `F_B`: blink on. -/
  fB : Bool
  /-- `F_SHIFT`: placeholder, written and read by no rule (U19). -/
  fShift : Bool
  /-- `F_DL`: data length, stored only (R50). -/
  fDl : Bool
  /-- `F_N`: line count, stored only. -/
  fN : Bool
  /-- `F_F`: font, stored only. -/
  fF : Bool
  /-- `F_BUSY`: busy flag, set by no rule (R51). -/
  fBusy : Bool
  /-- `CURSOR`: wraps modulo `LCD_CURSOR_MOD` (R49). -/
  cursor : Fin Config.lcdCursorMod
  /-- `SHIFT`: wraps modulo `LCD_SHIFT_MOD` (R49). -/
  shift : Fin Config.lcdShiftMod
  /-- Display-data RAM. -/
  ddram : Vector Byte 80
  /-- Character-generator RAM. -/
  cgram : Vector Byte 64
  deriving DecidableEq, Repr

/-- The whole machine (10_state.md; R54: one of each). -/
structure State where
  /-- `A`, the accumulator (R20). -/
  a : Byte
  /-- `X`, index register (R20). -/
  x : Byte
  /-- `Y`, index register (R20). -/
  y : Byte
  /-- `SP`, the stack pointer into page 0x01 (R22). -/
  sp : Byte
  /-- `P`, the status register N V U B D I Z C (R23, R24); its bits are read and written through Machine/Flags.lean. -/
  p : Byte
  /-- `PC`, the program counter (R21). -/
  pc : Word
  /-- `ST`, the execution state (R31). -/
  st : ExecState
  /-- `RAM` and `ROM` (R35). -/
  mem : Memory
  /-- The timer/parallel interface chip. -/
  via : Via
  /-- The UART chip. -/
  uart : Uart
  /-- The display controller. -/
  lcd : Lcd
  /-- The model's own: how many pin draws have been taken (R356; log 4). -/
  pinDraws : Nat
  deriving DecidableEq, Repr

/-- The values the spec leaves open at a CPU reset (R34, U1, U5): draws, so an argument of the host's reset (log 22). -/
structure CpuDraws where
  a : Byte
  x : Byte
  y : Byte
  sp : Byte
  p : Byte
  pc : Word
  deriving DecidableEq, Repr

/-- VIA reset values (R41). -/
def Via.reset : Via :=
  { ora := 0, orb := 0, ddra := 0, ddrb := 0, sr := 0, acr := 0, pcr := 0, ifr := 0, ier := 0,
    t1c := 0, t1l := 0, t2c := 0, t2l := 0 }

/-- UART reset values (R46). -/
def Uart.reset : Uart :=
  { stat := 0, ctrl := 0, cmd := 0, txcnt := 0, rxcnt := 0, tdr := 0, tsr := 0, rdr := 0, rsr := 0 }

/-- LCD reset values (R52). -/
def Lcd.reset : Lcd :=
  { ir := 0, dr := 0, ac := 0, bank := .dd, fId := true, fS := false, fD := false, fC := false, fB := false,
    fShift := false, fDl := false, fN := false, fF := false, fBusy := false, cursor := 0, shift := 0,
    ddram := Vector.replicate 80 0x20, cgram := Vector.replicate 64 0 }

/-- The values `State.reset` names for what R34 leaves open (log 1, log 2). -/
def CpuDraws.named : CpuDraws :=
  { a := Config.resetA, x := Config.resetX, y := Config.resetY, sp := Config.resetSP, p := Config.resetP,
    pc := Config.resetPC }

/-- The machine at construction (R421, R422): booting, the devices at their reset values, nothing listed in memory. -/
def State.reset : State :=
  { a := CpuDraws.named.a, x := CpuDraws.named.x, y := CpuDraws.named.y, sp := CpuDraws.named.sp,
    p := CpuDraws.named.p, pc := CpuDraws.named.pc, st := .booting, mem := [], via := Via.reset,
    uart := Uart.reset, lcd := Lcd.reset, pinDraws := 0 }

/-- The faults of a step: none. The core raises no exception and its contract is total (R320, R321; log 17). -/
inductive Fault where
  deriving DecidableEq, Repr

/-- Why a call is turned away. `notModelled` is `exec`'s, for an instruction without a meaning (safe: the run stops);
no arm of `exec` is left with it. The others answer calls of the host between steps, never a step; each is safe: the spec
itself refuses the call (93_implementation_defined.md section A). -/
inductive Refusal where
  /-- Raised by `exec` for an instruction without a meaning. Safe. -/
  | notModelled (mnemonic : String)
  /-- Raised by `resume` while the CPU is booting (R425, U6). Safe. -/
  | resumeWhileBooting
  /-- Raised by `transmitBit` when `TXCNT = 0` (R382, U9). Safe. -/
  | transmitCountZero
  /-- Raised by `program` when the data is longer than the ROM (R426, U10). Safe. -/
  | programTooLong
  deriving DecidableEq, Repr

end Sys2Proof.Machine
end

