-- ==== Sys2Proof/Machine/Lcd.lean ====
section
/-! DEFINITION. The display controller (60_exceptions.md part D): command decode, each command's effect, the address
counter, data and instruction-register transfers. -/

namespace Sys2Proof.Machine

/-- The commands an instruction byte selects, with their fields (R392). -/
inductive LcdCommand where
  | clearDisplay
  | returnHome
  | entryMode (id s : Bool)
  | displayOnOff (d c b : Bool)
  /-- `shiftDisplay` is the S/C bit, `right` the R/L bit. -/
  | cursorDisplayShift (shiftDisplay right : Bool)
  | functionSet (dl n f : Bool)
  | setCgAddress (addr : BitVec 7)
  | setDdAddress (addr : BitVec 7)
  | none
  deriving DecidableEq, Repr

/-- Command decode (R392): the first row whose pattern matches, in the order of the table. -/
def lcdDecode (d : Byte) : LcdCommand :=
  if d = 0x01 then .clearDisplay
  else if d &&& 0xFE = 0x02 then .returnHome
  else if d &&& 0xFC = 0x04 then .entryMode (d.getLsbD 1) (d.getLsbD 0)
  else if d &&& 0xF8 = 0x08 then .displayOnOff (d.getLsbD 2) (d.getLsbD 1) (d.getLsbD 0)
  else if d &&& 0xF0 = 0x10 then .cursorDisplayShift (d.getLsbD 3) (d.getLsbD 2)
  else if d &&& 0xE0 = 0x20 then .functionSet (d.getLsbD 4) (d.getLsbD 3) (d.getLsbD 2)
  else if d &&& 0xC0 = 0x40 then .setCgAddress (d.setWidth 6 |>.setWidth 7)
  else if d &&& 0x80 = 0x80 then .setDdAddress (d.setWidth 7)
  else .none

/-- `M` of R401: the size of the bank that `AC` addresses. -/
def Lcd.bankSize (l : Lcd) : Nat :=
  match l.bank with
  | .dd => 80
  | .cg => 64

/-- The RAM cell addressed (R401): `cgram[AC mod 64]` or `ddram[AC mod 80]`. -/
def Lcd.cell (l : Lcd) : Byte :=
  match l.bank with
  | .dd => l.ddram[l.ac.toNat % 80]'(Nat.mod_lt _ (by decide))
  | .cg => l.cgram[l.ac.toNat % 64]'(Nat.mod_lt _ (by decide))

/-- The cell of R401 `<- d`. -/
def Lcd.setCell (l : Lcd) (d : Byte) : Lcd :=
  match l.bank with
  | .dd => { l with ddram := l.ddram.set (l.ac.toNat % 80) d (Nat.mod_lt _ (by decide)) }
  | .cg => { l with cgram := l.cgram.set (l.ac.toNat % 64) d (Nat.mod_lt _ (by decide)) }

/-- `AC` one step up or down with the bank's modulus (R401, R397). -/
def Lcd.moveAC (l : Lcd) (up : Bool) : Lcd :=
  let m := l.bankSize
  let a := l.ac.toNat % m
  { l with ac := BitVec.ofNat 7 (if up then (a + 1) % m else (a + m - 1) % m) }

/-- `stepAC()` (R401): in the direction of `F_ID`. -/
def Lcd.stepAC (l : Lcd) : Lcd := l.moveAC l.fId

/-- `CURSOR` one step up or down modulo `LCD_CURSOR_MOD`. -/
def Lcd.moveCursor (l : Lcd) (up : Bool) : Lcd :=
  { l with cursor := if up then l.cursor + 1 else l.cursor - 1 }

/-- `SHIFT` one step up or down modulo `LCD_SHIFT_MOD`. -/
def Lcd.moveShift (l : Lcd) (up : Bool) : Lcd :=
  { l with shift := if up then l.shift + 1 else l.shift - 1 }

/-- The effect of a command (R393 to R400). -/
def Lcd.perform (l : Lcd) : LcdCommand → Lcd
  | .clearDisplay =>
    { l with ddram := Vector.replicate 80 0x20, ac := 0, bank := .dd, fId := true, cursor := 0, shift := 0 }
  | .returnHome => { l with ac := 0, bank := .dd, cursor := 0, shift := 0 }
  | .entryMode id s => { l with fId := id, fS := s }
  | .displayOnOff d c b => { l with fD := d, fC := c, fB := b }
  | .cursorDisplayShift shiftDisplay right =>
    if shiftDisplay then l.moveShift (!right) else (l.moveCursor right).moveAC right
  | .functionSet dl n f => { l with fDl := dl, fN := n, fF := f }
  | .setCgAddress addr => { l with ac := addr, bank := .cg }
  | .setDdAddress addr => { l with ac := addr, bank := .dd, cursor := Fin.ofNat Config.lcdCursorMod addr.toNat }
  | .none => l

/-- Instruction write, `(rs, rw) = (0, 0)` (R391, R392). -/
def Lcd.writeInstruction (l : Lcd) (d : Byte) : Lcd := { l with ir := d }.perform (lcdDecode d)

/-- Instruction-register read, `(0, 1)` (R402): the busy flag above the address counter. -/
def Lcd.readInstruction (l : Lcd) : Byte := (BitVec.ofBool l.fBusy ++ l.ac : BitVec 8)

/-- Data write, `(1, 0)` (R403). -/
def Lcd.writeData (l : Lcd) (d : Byte) : Lcd :=
  let l := { l with dr := d }.setCell d
  let l := match l.bank with
    | .dd =>
      let l := l.moveCursor l.fId
      if l.fS then l.moveShift l.fId else l
    | .cg => l
  l.stepAC

/-- Data read, `(1, 1)` (R404). -/
def Lcd.readData (l : Lcd) : Byte × Lcd :=
  let r := l.cell
  let l := { l with dr := r }
  let l := match l.bank with
    | .dd => l.moveCursor l.fId
    | .cg => l
  (r, l.stepAC)

/-- `LCD.execute(rs, rw, d)` (R390, R391): a write (`rw = 0`) consumes `d` and returns nothing, a read returns a byte. -/
def Lcd.execute (l : Lcd) (rs rw : Bool) (d : Byte) : Option Byte × Lcd :=
  match rs, rw with
  | false, false => (none, l.writeInstruction d)
  | false, true => (some l.readInstruction, l)
  | true, false => (none, l.writeData d)
  | true, true => (some l.readData.1, l.readData.2)

end Sys2Proof.Machine
end

