-- ==== Sys2Proof/Machine/Memory.lean ====
section
/-! DEFINITION. Memory as a list of (bus address, byte) cells in one canonical form: addresses strictly rising, each of
`RAM` or `ROM`, and no cell that holds what an unlisted address reads as. -/

namespace Sys2Proof.Machine

/-- The address is a cell of the `RAM` array (R66). -/
abbrev isRam (k : Nat) : Prop := k < 0x4000

/-- The address is a cell of the `ROM` array (R69). -/
abbrev isRom (k : Nat) : Prop := 0xE000 ≤ k ∧ k < 0x10000

/-- The canonical form: two memories that read alike everywhere are then the same list. -/
abbrev Memory.wf (m : Memory) : Prop :=
  m.Pairwise (fun c d => c.1 < d.1) ∧ ∀ c ∈ m, (isRam c.1 ∨ isRom c.1) ∧ c.2 ≠ Config.unwrittenByte

/-- One byte of memory; an unlisted one reads as `Config.unwrittenByte` (R36; log 3). -/
def Memory.read : Memory → Nat → Byte
  | [], _ => Config.unwrittenByte
  | (k, v) :: m, a => if k = a then v else Memory.read m a

/-- The list with `a` holding `v`: a cell is added, changed, or taken out when `v` is what an unlisted byte reads as. -/
def Memory.write : Memory → Nat → Byte → Memory
  | [], a, v => if v = Config.unwrittenByte then [] else [(a, v)]
  | (k, w) :: m, a, v =>
    if k < a then (k, w) :: Memory.write m a v
    else
      let rest := if k = a then m else (k, w) :: m
      if v = Config.unwrittenByte then rest else (a, v) :: rest

/-- `RAM[i mod 0x4000]`: the array is addressed modulo its size (R35, R66). -/
def ramAddr (i : Nat) : Nat := i % 0x4000

/-- The bus address of `ROM[i mod 0x2000]` (R35, R69). -/
def romAddr (i : Nat) : Nat := 0xE000 + i % 0x2000

end Sys2Proof.Machine
end

