-- ==== Sys2Proof/Machine/Uart.lean ====
section
/-! DEFINITION. The UART (60_exceptions.md part C): its four bus registers, the soft reset, the bit-by-bit shift engine
that the host drives, and the decode of the control register. -/

namespace Sys2Proof.Machine

/-- Status read (R374): bit 4 reads as 1, and bits 7 to 5 of the stored status are cleared. -/
def Uart.readStatus (u : Uart) : Byte × Uart := (u.stat ||| 0x10, { u with stat := u.stat &&& 0x1F })

/-- Data read (R375): the receive data, and bits 3 to 0 of the status are cleared. -/
def Uart.readData (u : Uart) : Byte × Uart := (u.rdr, { u with stat := u.stat &&& 0xF0 })

/-- `UART.read(i)` (R371, R373). -/
def Uart.read (u : Uart) (i : BitVec 2) : Byte × Uart :=
  match i.toNat with
  | 0 => u.readData
  | 1 => u.readStatus
  | 2 => (u.cmd, u)
  | _ => (u.ctrl, u)

/-- Data write (R378): both transmit registers at once, and eight bits to send. -/
def Uart.writeData (u : Uart) (v : Byte) : Uart := { u with tdr := v, tsr := v, txcnt := 8 }

/-- Soft reset (R377): overrun and the command bits 4 to 0 are cleared. -/
def Uart.softReset (u : Uart) : Uart := { u with stat := u.stat &&& 0xFB, cmd := u.cmd &&& 0xE0 }

/-- `UART.write(i, v)` (R371, R376). -/
def Uart.write (u : Uart) (i : BitVec 2) (v : Byte) : Uart :=
  match i.toNat with
  | 0 => u.writeData v
  | 1 => u.softReset
  | 2 => { u with cmd := v }
  | _ => { u with ctrl := v }

/-- `receiveBit` (R381): one bit enters the receive shift register at the top; the eighth moves the byte to the data
register, with an overrun if the last one was not read. The count is 4 bits wide (log 14). -/
def Uart.receiveBit (u : Uart) (b : Bool) : Uart :=
  let rsr := (u.rsr >>> 1) ||| (if b then 0x80 else 0x00)
  let rxcnt := u.rxcnt + 1
  if rxcnt = 8 then
    { u with
      rsr := rsr
      rdr := rsr
      stat := (if u.stat.getLsbD 3 then u.stat ||| 0x04 else u.stat) ||| 0x08
      rxcnt := 0 }
  else { u with rsr := rsr, rxcnt := rxcnt }

/-- `transmitBit` with its precondition `TXCNT > 0` met (R382): the bit sent and the register after it. -/
def Uart.transmitBit (u : Uart) : Bool × Uart :=
  (u.tsr.getLsbD 0, { u with tsr := u.tsr >>> 1, txcnt := u.txcnt - 1 })

/-- The bit rate that `CTRL[3:0]` selects (R380), in hundredths of a bit per second where it is a number (log 21). -/
inductive BaudRate where
  /-- The external clock divided by 16. -/
  | externalDiv16
  /-- A rate of the baud-rate generator. -/
  | centiBaud (n : Nat)
  deriving DecidableEq, Repr

/-- `baud(CTRL[3:0])` (R380). -/
def Uart.baud (u : Uart) : BaudRate :=
  match (u.ctrl &&& 0x0F).toNat with
  | 0 => .externalDiv16
  | 1 => .centiBaud 5000
  | 2 => .centiBaud 7500
  | 3 => .centiBaud 10992
  | 4 => .centiBaud 13458
  | 5 => .centiBaud 15000
  | 6 => .centiBaud 30000
  | 7 => .centiBaud 60000
  | 8 => .centiBaud 120000
  | 9 => .centiBaud 180000
  | 10 => .centiBaud 240000
  | 11 => .centiBaud 360000
  | 12 => .centiBaud 480000
  | 13 => .centiBaud 720000
  | 14 => .centiBaud 960000
  | _ => .centiBaud 1920000

/-- `CTRL[4]` (R380): the receiver clock comes from the baud-rate generator. -/
def Uart.internalClock (u : Uart) : Bool := u.ctrl.getLsbD 4

/-- `wordLength(CTRL[6:5])` (R380): 8, 7, 6, 5 for 0, 1, 2, 3. -/
def Uart.wordLength (u : Uart) : Nat := 8 - (u.ctrl.extractLsb' 5 2).toNat

/-- `stopBits(CTRL[7])` (R380). -/
def Uart.stopBits (u : Uart) : Nat := if u.ctrl.getLsbD 7 then 2 else 1

end Sys2Proof.Machine
end

