-- ==== Sys2Proof/Syntax.lean ====
section
/-! DEFINITION. The instructions: one constructor for each of the 256 rows of spec/opcode_table.json, named by its
mnemonic and its mode key (30_encoding.md section 3); a reserved opcode is named by its value. An operand is held as the
step assembles it (R102, R104 to R111): `v` an immediate, `lo` a zero-page address or pointer, `addr` a 16-bit address
(`hi ++ lo`), `off` a signed branch offset; for a reserved opcode `lo` and `hi` are the bytes it fetches and ignores. -/

namespace Sys2Proof

/-- One instruction; the docstring of a constructor gives its opcode, mode key and rule. -/
inductive Instr where
  -- Loads, stores and transfers (40_load_store_transfer.md)
  /-- 0xA1, izx, R141. -/
  | ldaIzx (lo : Byte)
  /-- 0xA5, zp, R141. -/
  | ldaZp (lo : Byte)
  /-- 0xA9, imm, R141. -/
  | ldaImm (v : Byte)
  /-- 0xAD, abs, R141. -/
  | ldaAbs (addr : Word)
  /-- 0xB1, izy, R141. -/
  | ldaIzy (lo : Byte)
  /-- 0xB2, izp, R141. -/
  | ldaIzp (lo : Byte)
  /-- 0xB5, zpx, R141. -/
  | ldaZpx (lo : Byte)
  /-- 0xB9, aby, R141. -/
  | ldaAby (addr : Word)
  /-- 0xBD, abx, R141. -/
  | ldaAbx (addr : Word)
  /-- 0xA2, imm, R142. -/
  | ldxImm (v : Byte)
  /-- 0xA6, zp, R142. -/
  | ldxZp (lo : Byte)
  /-- 0xAE, abs, R142. -/
  | ldxAbs (addr : Word)
  /-- 0xB6, zpy, R142. -/
  | ldxZpy (lo : Byte)
  /-- 0xBE, aby, R142. -/
  | ldxAby (addr : Word)
  /-- 0xA0, imm, R143. -/
  | ldyImm (v : Byte)
  /-- 0xA4, zp, R143. -/
  | ldyZp (lo : Byte)
  /-- 0xAC, abs, R143. -/
  | ldyAbs (addr : Word)
  /-- 0xB4, zpx, R143. -/
  | ldyZpx (lo : Byte)
  /-- 0xBC, abx, R143. -/
  | ldyAbx (addr : Word)
  /-- 0x81, izx, R144. -/
  | staIzx (lo : Byte)
  /-- 0x85, zp, R144. -/
  | staZp (lo : Byte)
  /-- 0x8D, abs, R144. -/
  | staAbs (addr : Word)
  /-- 0x91, izy, R144. -/
  | staIzy (lo : Byte)
  /-- 0x92, izp, R144. -/
  | staIzp (lo : Byte)
  /-- 0x95, zpx, R144. -/
  | staZpx (lo : Byte)
  /-- 0x99, aby, R144. -/
  | staAby (addr : Word)
  /-- 0x9D, abx, R144. -/
  | staAbx (addr : Word)
  /-- 0x86, zp, R145. -/
  | stxZp (lo : Byte)
  /-- 0x8E, abs, R145. -/
  | stxAbs (addr : Word)
  /-- 0x96, zpy, R145. -/
  | stxZpy (lo : Byte)
  /-- 0x84, zp, R146. -/
  | styZp (lo : Byte)
  /-- 0x8C, abs, R146. -/
  | styAbs (addr : Word)
  /-- 0x94, zpx, R146. -/
  | styZpx (lo : Byte)
  /-- 0x64, zp, R147. -/
  | stzZp (lo : Byte)
  /-- 0x74, zpx, R147. -/
  | stzZpx (lo : Byte)
  /-- 0x9C, abs, R147. -/
  | stzAbs (addr : Word)
  /-- 0x9E, abx, R147. -/
  | stzAbx (addr : Word)
  /-- 0xAA, imp, R148. -/
  | tax
  /-- 0xA8, imp, R149. -/
  | tay
  /-- 0x8A, imp, R150. -/
  | txa
  /-- 0x98, imp, R151. -/
  | tya
  /-- 0xBA, imp, R152. -/
  | tsx
  /-- 0x9A, imp, R153. -/
  | txs
  -- Arithmetic, logic, compare, bit test (41_alu_logic_compare.md)
  /-- 0x61, izx, R171. -/
  | adcIzx (lo : Byte)
  /-- 0x65, zp, R171. -/
  | adcZp (lo : Byte)
  /-- 0x69, imm, R171. -/
  | adcImm (v : Byte)
  /-- 0x6D, abs, R171. -/
  | adcAbs (addr : Word)
  /-- 0x71, izy, R171. -/
  | adcIzy (lo : Byte)
  /-- 0x72, izp, R171. -/
  | adcIzp (lo : Byte)
  /-- 0x75, zpx, R171. -/
  | adcZpx (lo : Byte)
  /-- 0x79, aby, R171. -/
  | adcAby (addr : Word)
  /-- 0x7D, abx, R171. -/
  | adcAbx (addr : Word)
  /-- 0xE1, izx, R172. -/
  | sbcIzx (lo : Byte)
  /-- 0xE5, zp, R172. -/
  | sbcZp (lo : Byte)
  /-- 0xE9, imm, R172. -/
  | sbcImm (v : Byte)
  /-- 0xED, abs, R172. -/
  | sbcAbs (addr : Word)
  /-- 0xF1, izy, R172. -/
  | sbcIzy (lo : Byte)
  /-- 0xF2, izp, R172. -/
  | sbcIzp (lo : Byte)
  /-- 0xF5, zpx, R172. -/
  | sbcZpx (lo : Byte)
  /-- 0xF9, aby, R172. -/
  | sbcAby (addr : Word)
  /-- 0xFD, abx, R172. -/
  | sbcAbx (addr : Word)
  /-- 0x21, izx, R173. -/
  | andIzx (lo : Byte)
  /-- 0x25, zp, R173. -/
  | andZp (lo : Byte)
  /-- 0x29, imm, R173. -/
  | andImm (v : Byte)
  /-- 0x2D, abs, R173. -/
  | andAbs (addr : Word)
  /-- 0x31, izy, R173. -/
  | andIzy (lo : Byte)
  /-- 0x32, izp, R173. -/
  | andIzp (lo : Byte)
  /-- 0x35, zpx, R173. -/
  | andZpx (lo : Byte)
  /-- 0x39, aby, R173. -/
  | andAby (addr : Word)
  /-- 0x3D, abx, R173. -/
  | andAbx (addr : Word)
  /-- 0x01, izx, R174. -/
  | oraIzx (lo : Byte)
  /-- 0x05, zp, R174. -/
  | oraZp (lo : Byte)
  /-- 0x09, imm, R174. -/
  | oraImm (v : Byte)
  /-- 0x0D, abs, R174. -/
  | oraAbs (addr : Word)
  /-- 0x11, izy, R174. -/
  | oraIzy (lo : Byte)
  /-- 0x12, izp, R174. -/
  | oraIzp (lo : Byte)
  /-- 0x15, zpx, R174. -/
  | oraZpx (lo : Byte)
  /-- 0x19, aby, R174. -/
  | oraAby (addr : Word)
  /-- 0x1D, abx, R174. -/
  | oraAbx (addr : Word)
  /-- 0x41, izx, R175. -/
  | eorIzx (lo : Byte)
  /-- 0x45, zp, R175. -/
  | eorZp (lo : Byte)
  /-- 0x49, imm, R175. -/
  | eorImm (v : Byte)
  /-- 0x4D, abs, R175. -/
  | eorAbs (addr : Word)
  /-- 0x51, izy, R175. -/
  | eorIzy (lo : Byte)
  /-- 0x52, izp, R175. -/
  | eorIzp (lo : Byte)
  /-- 0x55, zpx, R175. -/
  | eorZpx (lo : Byte)
  /-- 0x59, aby, R175. -/
  | eorAby (addr : Word)
  /-- 0x5D, abx, R175. -/
  | eorAbx (addr : Word)
  /-- 0xC1, izx, R177. -/
  | cmpIzx (lo : Byte)
  /-- 0xC5, zp, R177. -/
  | cmpZp (lo : Byte)
  /-- 0xC9, imm, R177. -/
  | cmpImm (v : Byte)
  /-- 0xCD, abs, R177. -/
  | cmpAbs (addr : Word)
  /-- 0xD1, izy, R177. -/
  | cmpIzy (lo : Byte)
  /-- 0xD2, izp, R177. -/
  | cmpIzp (lo : Byte)
  /-- 0xD5, zpx, R177. -/
  | cmpZpx (lo : Byte)
  /-- 0xD9, aby, R177. -/
  | cmpAby (addr : Word)
  /-- 0xDD, abx, R177. -/
  | cmpAbx (addr : Word)
  /-- 0xE0, imm, R178. -/
  | cpxImm (v : Byte)
  /-- 0xE4, zp, R178. -/
  | cpxZp (lo : Byte)
  /-- 0xEC, abs, R178. -/
  | cpxAbs (addr : Word)
  /-- 0xC0, imm, R179. -/
  | cpyImm (v : Byte)
  /-- 0xC4, zp, R179. -/
  | cpyZp (lo : Byte)
  /-- 0xCC, abs, R179. -/
  | cpyAbs (addr : Word)
  /-- 0x24, zp, R180. -/
  | bitZp (lo : Byte)
  /-- 0x2C, abs, R180. -/
  | bitAbs (addr : Word)
  /-- 0x34, zpx, R180. -/
  | bitZpx (lo : Byte)
  /-- 0x3C, abx, R180. -/
  | bitAbx (addr : Word)
  /-- 0x89, imm, R180. -/
  | bitImm (v : Byte)
  /-- 0x04, zp, R181. -/
  | tsbZp (lo : Byte)
  /-- 0x0C, abs, R181. -/
  | tsbAbs (addr : Word)
  /-- 0x14, zp, R182. -/
  | trbZp (lo : Byte)
  /-- 0x1C, abs, R182. -/
  | trbAbs (addr : Word)
  -- Shifts, rotates, increments, decrements (42_shift_incdec.md)
  /-- 0x06, zp, R201. -/
  | aslZp (lo : Byte)
  /-- 0x0A, acc, R201. -/
  | aslAcc
  /-- 0x0E, abs, R201. -/
  | aslAbs (addr : Word)
  /-- 0x16, zpx, R201. -/
  | aslZpx (lo : Byte)
  /-- 0x1E, abx, R201. -/
  | aslAbx (addr : Word)
  /-- 0x46, zp, R202. -/
  | lsrZp (lo : Byte)
  /-- 0x4A, acc, R202. -/
  | lsrAcc
  /-- 0x4E, abs, R202. -/
  | lsrAbs (addr : Word)
  /-- 0x56, zpx, R202. -/
  | lsrZpx (lo : Byte)
  /-- 0x5E, abx, R202. -/
  | lsrAbx (addr : Word)
  /-- 0x26, zp, R203. -/
  | rolZp (lo : Byte)
  /-- 0x2A, acc, R203. -/
  | rolAcc
  /-- 0x2E, abs, R203. -/
  | rolAbs (addr : Word)
  /-- 0x36, zpx, R203. -/
  | rolZpx (lo : Byte)
  /-- 0x3E, abx, R203. -/
  | rolAbx (addr : Word)
  /-- 0x66, zp, R204. -/
  | rorZp (lo : Byte)
  /-- 0x6A, acc, R204. -/
  | rorAcc
  /-- 0x6E, abs, R204. -/
  | rorAbs (addr : Word)
  /-- 0x76, zpx, R204. -/
  | rorZpx (lo : Byte)
  /-- 0x7E, abx, R204. -/
  | rorAbx (addr : Word)
  /-- 0x1A, acc, R205. -/
  | incAcc
  /-- 0xE6, zp, R205. -/
  | incZp (lo : Byte)
  /-- 0xEE, abs, R205. -/
  | incAbs (addr : Word)
  /-- 0xF6, zpx, R205. -/
  | incZpx (lo : Byte)
  /-- 0xFE, abx, R205. -/
  | incAbx (addr : Word)
  /-- 0x3A, acc, R206. -/
  | decAcc
  /-- 0xC6, zp, R206. -/
  | decZp (lo : Byte)
  /-- 0xCE, abs, R206. -/
  | decAbs (addr : Word)
  /-- 0xD6, zpx, R206. -/
  | decZpx (lo : Byte)
  /-- 0xDE, abx, R206. -/
  | decAbx (addr : Word)
  /-- 0xE8, imp, R207. -/
  | inx
  /-- 0xC8, imp, R208. -/
  | iny
  /-- 0xCA, imp, R209. -/
  | dex
  /-- 0x88, imp, R210. -/
  | dey
  -- Bit-indexed families (43_bit_ops.md)
  /-- 0x07, zp, R231. -/
  | rmb0 (lo : Byte)
  /-- 0x17, zp, R231. -/
  | rmb1 (lo : Byte)
  /-- 0x27, zp, R231. -/
  | rmb2 (lo : Byte)
  /-- 0x37, zp, R231. -/
  | rmb3 (lo : Byte)
  /-- 0x47, zp, R231. -/
  | rmb4 (lo : Byte)
  /-- 0x57, zp, R231. -/
  | rmb5 (lo : Byte)
  /-- 0x67, zp, R231. -/
  | rmb6 (lo : Byte)
  /-- 0x77, zp, R231. -/
  | rmb7 (lo : Byte)
  /-- 0x87, zp, R232. -/
  | smb0 (lo : Byte)
  /-- 0x97, zp, R232. -/
  | smb1 (lo : Byte)
  /-- 0xA7, zp, R232. -/
  | smb2 (lo : Byte)
  /-- 0xB7, zp, R232. -/
  | smb3 (lo : Byte)
  /-- 0xC7, zp, R232. -/
  | smb4 (lo : Byte)
  /-- 0xD7, zp, R232. -/
  | smb5 (lo : Byte)
  /-- 0xE7, zp, R232. -/
  | smb6 (lo : Byte)
  /-- 0xF7, zp, R232. -/
  | smb7 (lo : Byte)
  /-- 0x0F, zprel, R233. -/
  | bbr0 (lo : Byte) (off : Byte)
  /-- 0x1F, zprel, R233. -/
  | bbr1 (lo : Byte) (off : Byte)
  /-- 0x2F, zprel, R233. -/
  | bbr2 (lo : Byte) (off : Byte)
  /-- 0x3F, zprel, R233. -/
  | bbr3 (lo : Byte) (off : Byte)
  /-- 0x4F, zprel, R233. -/
  | bbr4 (lo : Byte) (off : Byte)
  /-- 0x5F, zprel, R233. -/
  | bbr5 (lo : Byte) (off : Byte)
  /-- 0x6F, zprel, R233. -/
  | bbr6 (lo : Byte) (off : Byte)
  /-- 0x7F, zprel, R233. -/
  | bbr7 (lo : Byte) (off : Byte)
  /-- 0x8F, zprel, R234. -/
  | bbs0 (lo : Byte) (off : Byte)
  /-- 0x9F, zprel, R234. -/
  | bbs1 (lo : Byte) (off : Byte)
  /-- 0xAF, zprel, R234. -/
  | bbs2 (lo : Byte) (off : Byte)
  /-- 0xBF, zprel, R234. -/
  | bbs3 (lo : Byte) (off : Byte)
  /-- 0xCF, zprel, R234. -/
  | bbs4 (lo : Byte) (off : Byte)
  /-- 0xDF, zprel, R234. -/
  | bbs5 (lo : Byte) (off : Byte)
  /-- 0xEF, zprel, R234. -/
  | bbs6 (lo : Byte) (off : Byte)
  /-- 0xFF, zprel, R234. -/
  | bbs7 (lo : Byte) (off : Byte)
  -- Branches, jumps, subroutines (44_control_flow.md)
  /-- 0x90, rel, R251. -/
  | bcc (off : Byte)
  /-- 0xB0, rel, R252. -/
  | bcs (off : Byte)
  /-- 0xF0, rel, R253. -/
  | beq (off : Byte)
  /-- 0xD0, rel, R254. -/
  | bne (off : Byte)
  /-- 0x30, rel, R255. -/
  | bmi (off : Byte)
  /-- 0x10, rel, R256. -/
  | bpl (off : Byte)
  /-- 0x50, rel, R257. -/
  | bvc (off : Byte)
  /-- 0x70, rel, R258. -/
  | bvs (off : Byte)
  /-- 0x80, rel, R259. -/
  | bra (off : Byte)
  /-- 0x4C, abs, R260. -/
  | jmpAbs (addr : Word)
  /-- 0x6C, ind, R260. -/
  | jmpInd (addr : Word)
  /-- 0x7C, iax, R260. -/
  | jmpIax (addr : Word)
  /-- 0x20, abs, R261. -/
  | jsr (addr : Word)
  /-- 0x60, imp, R262. -/
  | rts
  -- Stack, flags, no-op and system (45_stack_flags_system.md)
  /-- 0x48, imp, R280. -/
  | pha
  /-- 0xDA, imp, R281. -/
  | phx
  /-- 0x5A, imp, R282. -/
  | phy
  /-- 0x08, imp, R283. -/
  | php
  /-- 0x68, imp, R284. -/
  | pla
  /-- 0xFA, imp, R285. -/
  | plx
  /-- 0x7A, imp, R286. -/
  | ply
  /-- 0x28, imp, R287. -/
  | plp
  /-- 0x18, imp, R288. -/
  | clc
  /-- 0x38, imp, R289. -/
  | sec
  /-- 0x58, imp, R290. -/
  | cli
  /-- 0x78, imp, R291. -/
  | sei
  /-- 0xD8, imp, R292. -/
  | cld
  /-- 0xF8, imp, R293. -/
  | sed
  /-- 0xB8, imp, R294. -/
  | clv
  /-- 0xEA, imp, R296. -/
  | nop
  /-- 0x00, imp, R300. -/
  | brk
  /-- 0x40, imp, R301. -/
  | rti
  /-- 0xCB, imp, R303. -/
  | wai
  /-- 0xDB, imp, R304. -/
  | stp
  -- The 44 reserved opcodes (R113, R297): those with operand bytes, then those without
  /-- 0x02, reserved, size 2. -/
  | res02 (lo : Byte)
  /-- 0x22, reserved, size 2. -/
  | res22 (lo : Byte)
  /-- 0x42, reserved, size 2. -/
  | res42 (lo : Byte)
  /-- 0x44, reserved, size 2. -/
  | res44 (lo : Byte)
  /-- 0x54, reserved, size 2. -/
  | res54 (lo : Byte)
  /-- 0x5C, reserved, size 3. -/
  | res5C (lo hi : Byte)
  /-- 0x62, reserved, size 2. -/
  | res62 (lo : Byte)
  /-- 0x82, reserved, size 2. -/
  | res82 (lo : Byte)
  /-- 0xC2, reserved, size 2. -/
  | resC2 (lo : Byte)
  /-- 0xD4, reserved, size 2. -/
  | resD4 (lo : Byte)
  /-- 0xDC, reserved, size 3. -/
  | resDC (lo hi : Byte)
  /-- 0xE2, reserved, size 2. -/
  | resE2 (lo : Byte)
  /-- 0xF4, reserved, size 2. -/
  | resF4 (lo : Byte)
  /-- 0xFC, reserved, size 3. -/
  | resFC (lo hi : Byte)
  /-- 0x03, reserved, size 1. -/
  | res03
  /-- 0x0B, reserved, size 1. -/
  | res0B
  /-- 0x13, reserved, size 1. -/
  | res13
  /-- 0x1B, reserved, size 1. -/
  | res1B
  /-- 0x23, reserved, size 1. -/
  | res23
  /-- 0x2B, reserved, size 1. -/
  | res2B
  /-- 0x33, reserved, size 1. -/
  | res33
  /-- 0x3B, reserved, size 1. -/
  | res3B
  /-- 0x43, reserved, size 1. -/
  | res43
  /-- 0x4B, reserved, size 1. -/
  | res4B
  /-- 0x53, reserved, size 1. -/
  | res53
  /-- 0x5B, reserved, size 1. -/
  | res5B
  /-- 0x63, reserved, size 1. -/
  | res63
  /-- 0x6B, reserved, size 1. -/
  | res6B
  /-- 0x73, reserved, size 1. -/
  | res73
  /-- 0x7B, reserved, size 1. -/
  | res7B
  /-- 0x83, reserved, size 1. -/
  | res83
  /-- 0x8B, reserved, size 1. -/
  | res8B
  /-- 0x93, reserved, size 1. -/
  | res93
  /-- 0x9B, reserved, size 1. -/
  | res9B
  /-- 0xA3, reserved, size 1. -/
  | resA3
  /-- 0xAB, reserved, size 1. -/
  | resAB
  /-- 0xB3, reserved, size 1. -/
  | resB3
  /-- 0xBB, reserved, size 1. -/
  | resBB
  /-- 0xC3, reserved, size 1. -/
  | resC3
  /-- 0xD3, reserved, size 1. -/
  | resD3
  /-- 0xE3, reserved, size 1. -/
  | resE3
  /-- 0xEB, reserved, size 1. -/
  | resEB
  /-- 0xF3, reserved, size 1. -/
  | resF3
  /-- 0xFB, reserved, size 1. -/
  | resFB
  deriving DecidableEq, Repr

/-- Why a byte string is not read as an instruction. No opcode is among the reasons: every one of the 256 has an
instruction (R116); a string can only be too short. -/
inductive DecodeError where
  /-- There is no first byte. -/
  | empty
  /-- The string ends before the operand bytes that `SIZE[op]` calls for. -/
  | truncated (op : Byte)
  deriving DecidableEq, Repr

end Sys2Proof
end

