-- ==== Sys2Proof/WellFormed.lean ====
section
/-! DEFINITION. Well-formedness. No encoding is illegal (R116) and the fields of `Instr` have exactly the widths the
formats give them (R102), so every term of `Instr` is an instruction the hardware has. What can be ill-formed is a byte
string that claims to be one instruction: it must be as long as `SIZE` of its first byte says. -/

namespace Sys2Proof

/-- An instruction is well-formed: every term is, since an operand's width is its type (R102, R116). -/
def Instr.wellFormed (_ : Instr) : Bool := true

/-- The byte string has a first byte, the opcode (R100). -/
def codeHasOpcode (bytes : List Byte) : Bool := !bytes.isEmpty

/-- The byte string is exactly as long as the opcode's size says (R102): neither cut short nor followed by more. -/
def codeHasItsSize (bytes : List Byte) : Bool :=
  match bytes with
  | [] => false
  | op :: _ => bytes.length == Config.size op

/-- The byte string is the encoding of exactly one instruction (R100, R102). -/
def codeWellFormed (bytes : List Byte) : Bool := codeHasOpcode bytes && codeHasItsSize bytes

end Sys2Proof
end

