-- ==== Sys2Proof/Decode.lean ====
section
/-! DEFINITION. Decoding: from bytes to an instruction, total on any bytes, and back. The byte-order and
sign-extension helpers, the opcode matrix of 30_encoding.md R112 laid out as the spec prints it, the decoder, and after
it the encoder, written from the encodings of the instruction rules. -/

namespace Sys2Proof

/-- `hi ++ lo` (R8, R74): the word whose low byte is `lo`. -/
def wordOf (lo hi : Byte) : Word := (hi ++ lo : BitVec 16)

/-- `lo8(w) = w[7:0]` (R8). -/
def lo8 (w : Word) : Byte := w.extractLsb' 0 8

/-- `hi8(w) = w[15:8]` (R8). -/
def hi8 (w : Word) : Byte := w.extractLsb' 8 8

/-- `sext_16(b)` (R10): two's-complement sign extension of a byte to 16 bits. -/
def sext16 (b : Byte) : Word := b.signExtend 16

/-- A cell of the opcode matrix: the format (R102) and the instruction the operand bytes complete. -/
inductive Cell where
  /-- F1: the opcode alone. -/
  | f1 (i : Instr)
  /-- F2: one operand byte, `lo`. -/
  | f2 (mk : Byte → Instr)
  /-- F3: two operand bytes, `lo` then `hi`. -/
  | f3 (mk : Byte → Byte → Instr)

/-- F3 with a 16-bit operand: the bytes are its low byte and its high byte (R102, R74). -/
def f3w (mk : Word → Instr) : Cell := .f3 fun lo hi => mk (wordOf lo hi)

/-- Row 0x of the matrix (R112). -/
def matrixRow0 : List Cell :=
  [.f1 .brk, .f2 .oraIzx, .f2 .res02, .f1 .res03,
   .f2 .tsbZp, .f2 .oraZp, .f2 .aslZp, .f2 .rmb0,
   .f1 .php, .f2 .oraImm, .f1 .aslAcc, .f1 .res0B,
   f3w .tsbAbs, f3w .oraAbs, f3w .aslAbs, .f3 .bbr0]

/-- Row 1x of the matrix (R112). -/
def matrixRow1 : List Cell :=
  [.f2 .bpl, .f2 .oraIzy, .f2 .oraIzp, .f1 .res13,
   .f2 .trbZp, .f2 .oraZpx, .f2 .aslZpx, .f2 .rmb1,
   .f1 .clc, f3w .oraAby, .f1 .incAcc, .f1 .res1B,
   f3w .trbAbs, f3w .oraAbx, f3w .aslAbx, .f3 .bbr1]

/-- Row 2x of the matrix (R112). -/
def matrixRow2 : List Cell :=
  [f3w .jsr, .f2 .andIzx, .f2 .res22, .f1 .res23,
   .f2 .bitZp, .f2 .andZp, .f2 .rolZp, .f2 .rmb2,
   .f1 .plp, .f2 .andImm, .f1 .rolAcc, .f1 .res2B,
   f3w .bitAbs, f3w .andAbs, f3w .rolAbs, .f3 .bbr2]

/-- Row 3x of the matrix (R112). -/
def matrixRow3 : List Cell :=
  [.f2 .bmi, .f2 .andIzy, .f2 .andIzp, .f1 .res33,
   .f2 .bitZpx, .f2 .andZpx, .f2 .rolZpx, .f2 .rmb3,
   .f1 .sec, f3w .andAby, .f1 .decAcc, .f1 .res3B,
   f3w .bitAbx, f3w .andAbx, f3w .rolAbx, .f3 .bbr3]

/-- Row 4x of the matrix (R112). -/
def matrixRow4 : List Cell :=
  [.f1 .rti, .f2 .eorIzx, .f2 .res42, .f1 .res43,
   .f2 .res44, .f2 .eorZp, .f2 .lsrZp, .f2 .rmb4,
   .f1 .pha, .f2 .eorImm, .f1 .lsrAcc, .f1 .res4B,
   f3w .jmpAbs, f3w .eorAbs, f3w .lsrAbs, .f3 .bbr4]

/-- Row 5x of the matrix (R112). -/
def matrixRow5 : List Cell :=
  [.f2 .bvc, .f2 .eorIzy, .f2 .eorIzp, .f1 .res53,
   .f2 .res54, .f2 .eorZpx, .f2 .lsrZpx, .f2 .rmb5,
   .f1 .cli, f3w .eorAby, .f1 .phy, .f1 .res5B,
   .f3 .res5C, f3w .eorAbx, f3w .lsrAbx, .f3 .bbr5]

/-- Row 6x of the matrix (R112). -/
def matrixRow6 : List Cell :=
  [.f1 .rts, .f2 .adcIzx, .f2 .res62, .f1 .res63,
   .f2 .stzZp, .f2 .adcZp, .f2 .rorZp, .f2 .rmb6,
   .f1 .pla, .f2 .adcImm, .f1 .rorAcc, .f1 .res6B,
   f3w .jmpInd, f3w .adcAbs, f3w .rorAbs, .f3 .bbr6]

/-- Row 7x of the matrix (R112). -/
def matrixRow7 : List Cell :=
  [.f2 .bvs, .f2 .adcIzy, .f2 .adcIzp, .f1 .res73,
   .f2 .stzZpx, .f2 .adcZpx, .f2 .rorZpx, .f2 .rmb7,
   .f1 .sei, f3w .adcAby, .f1 .ply, .f1 .res7B,
   f3w .jmpIax, f3w .adcAbx, f3w .rorAbx, .f3 .bbr7]

/-- Row 8x of the matrix (R112). -/
def matrixRow8 : List Cell :=
  [.f2 .bra, .f2 .staIzx, .f2 .res82, .f1 .res83,
   .f2 .styZp, .f2 .staZp, .f2 .stxZp, .f2 .smb0,
   .f1 .dey, .f2 .bitImm, .f1 .txa, .f1 .res8B,
   f3w .styAbs, f3w .staAbs, f3w .stxAbs, .f3 .bbs0]

/-- Row 9x of the matrix (R112). -/
def matrixRow9 : List Cell :=
  [.f2 .bcc, .f2 .staIzy, .f2 .staIzp, .f1 .res93,
   .f2 .styZpx, .f2 .staZpx, .f2 .stxZpy, .f2 .smb1,
   .f1 .tya, f3w .staAby, .f1 .txs, .f1 .res9B,
   f3w .stzAbs, f3w .staAbx, f3w .stzAbx, .f3 .bbs1]

/-- Row Ax of the matrix (R112). -/
def matrixRowA : List Cell :=
  [.f2 .ldyImm, .f2 .ldaIzx, .f2 .ldxImm, .f1 .resA3,
   .f2 .ldyZp, .f2 .ldaZp, .f2 .ldxZp, .f2 .smb2,
   .f1 .tay, .f2 .ldaImm, .f1 .tax, .f1 .resAB,
   f3w .ldyAbs, f3w .ldaAbs, f3w .ldxAbs, .f3 .bbs2]

/-- Row Bx of the matrix (R112). -/
def matrixRowB : List Cell :=
  [.f2 .bcs, .f2 .ldaIzy, .f2 .ldaIzp, .f1 .resB3,
   .f2 .ldyZpx, .f2 .ldaZpx, .f2 .ldxZpy, .f2 .smb3,
   .f1 .clv, f3w .ldaAby, .f1 .tsx, .f1 .resBB,
   f3w .ldyAbx, f3w .ldaAbx, f3w .ldxAby, .f3 .bbs3]

/-- Row Cx of the matrix (R112). -/
def matrixRowC : List Cell :=
  [.f2 .cpyImm, .f2 .cmpIzx, .f2 .resC2, .f1 .resC3,
   .f2 .cpyZp, .f2 .cmpZp, .f2 .decZp, .f2 .smb4,
   .f1 .iny, .f2 .cmpImm, .f1 .dex, .f1 .wai,
   f3w .cpyAbs, f3w .cmpAbs, f3w .decAbs, .f3 .bbs4]

/-- Row Dx of the matrix (R112). -/
def matrixRowD : List Cell :=
  [.f2 .bne, .f2 .cmpIzy, .f2 .cmpIzp, .f1 .resD3,
   .f2 .resD4, .f2 .cmpZpx, .f2 .decZpx, .f2 .smb5,
   .f1 .cld, f3w .cmpAby, .f1 .phx, .f1 .stp,
   .f3 .resDC, f3w .cmpAbx, f3w .decAbx, .f3 .bbs5]

/-- Row Ex of the matrix (R112). -/
def matrixRowE : List Cell :=
  [.f2 .cpxImm, .f2 .sbcIzx, .f2 .resE2, .f1 .resE3,
   .f2 .cpxZp, .f2 .sbcZp, .f2 .incZp, .f2 .smb6,
   .f1 .inx, .f2 .sbcImm, .f1 .nop, .f1 .resEB,
   f3w .cpxAbs, f3w .sbcAbs, f3w .incAbs, .f3 .bbs6]

/-- Row Fx of the matrix (R112). -/
def matrixRowF : List Cell :=
  [.f2 .beq, .f2 .sbcIzy, .f2 .sbcIzp, .f1 .resF3,
   .f2 .resF4, .f2 .sbcZpx, .f2 .incZpx, .f2 .smb7,
   .f1 .sed, f3w .sbcAby, .f1 .plx, .f1 .resFB,
   .f3 .resFC, f3w .sbcAbx, f3w .incAbx, .f3 .bbs7]

/-- The opcode matrix (R112): row = high hex digit, column = low hex digit. -/
def opcodeMatrix : List (List Cell) :=
  [matrixRow0, matrixRow1, matrixRow2, matrixRow3, matrixRow4, matrixRow5, matrixRow6, matrixRow7] ++
  [matrixRow8, matrixRow9, matrixRowA, matrixRowB, matrixRowC, matrixRowD, matrixRowE, matrixRowF]

/-- The cell of an opcode (R112); the matrix has all 256, so the defaults are never taken. -/
def opcodeCell (op : Byte) : Cell :=
  (opcodeMatrix.getD (op.toNat / 16) []).getD (op.toNat % 16) (.f1 .nop)

/-- The format's size in bytes: `SIZE[op]` of the opcode whose cell it is (R102). -/
def Cell.size : Cell → Nat
  | .f1 _ => 1
  | .f2 _ => 2
  | .f3 _ => 3

/-- The decoder: one instruction off the front of a byte string, and the rest of the string (R101, R102). It refuses by
name a string that is too short, and nothing else. -/
def decode : List Byte → Except DecodeError (Instr × List Byte)
  | [] => .error .empty
  | op :: rest =>
    match opcodeCell op, rest with
    | .f1 i, rest => .ok (i, rest)
    | .f2 mk, lo :: rest => .ok (mk lo, rest)
    | .f3 mk, lo :: hi :: rest => .ok (mk lo hi, rest)
    | _, _ => .error (.truncated op)

/-- The encoder: the bytes of an instruction in address order, from the `Encodings` of its rule. -/
def encode : Instr → List Byte
  | .ldaIzx lo => [0xA1, lo]
  | .ldaZp lo => [0xA5, lo]
  | .ldaImm v => [0xA9, v]
  | .ldaAbs addr => [0xAD, lo8 addr, hi8 addr]
  | .ldaIzy lo => [0xB1, lo]
  | .ldaIzp lo => [0xB2, lo]
  | .ldaZpx lo => [0xB5, lo]
  | .ldaAby addr => [0xB9, lo8 addr, hi8 addr]
  | .ldaAbx addr => [0xBD, lo8 addr, hi8 addr]
  | .ldxImm v => [0xA2, v]
  | .ldxZp lo => [0xA6, lo]
  | .ldxAbs addr => [0xAE, lo8 addr, hi8 addr]
  | .ldxZpy lo => [0xB6, lo]
  | .ldxAby addr => [0xBE, lo8 addr, hi8 addr]
  | .ldyImm v => [0xA0, v]
  | .ldyZp lo => [0xA4, lo]
  | .ldyAbs addr => [0xAC, lo8 addr, hi8 addr]
  | .ldyZpx lo => [0xB4, lo]
  | .ldyAbx addr => [0xBC, lo8 addr, hi8 addr]
  | .staIzx lo => [0x81, lo]
  | .staZp lo => [0x85, lo]
  | .staAbs addr => [0x8D, lo8 addr, hi8 addr]
  | .staIzy lo => [0x91, lo]
  | .staIzp lo => [0x92, lo]
  | .staZpx lo => [0x95, lo]
  | .staAby addr => [0x99, lo8 addr, hi8 addr]
  | .staAbx addr => [0x9D, lo8 addr, hi8 addr]
  | .stxZp lo => [0x86, lo]
  | .stxAbs addr => [0x8E, lo8 addr, hi8 addr]
  | .stxZpy lo => [0x96, lo]
  | .styZp lo => [0x84, lo]
  | .styAbs addr => [0x8C, lo8 addr, hi8 addr]
  | .styZpx lo => [0x94, lo]
  | .stzZp lo => [0x64, lo]
  | .stzZpx lo => [0x74, lo]
  | .stzAbs addr => [0x9C, lo8 addr, hi8 addr]
  | .stzAbx addr => [0x9E, lo8 addr, hi8 addr]
  | .tax => [0xAA]
  | .tay => [0xA8]
  | .txa => [0x8A]
  | .tya => [0x98]
  | .tsx => [0xBA]
  | .txs => [0x9A]
  | .adcIzx lo => [0x61, lo]
  | .adcZp lo => [0x65, lo]
  | .adcImm v => [0x69, v]
  | .adcAbs addr => [0x6D, lo8 addr, hi8 addr]
  | .adcIzy lo => [0x71, lo]
  | .adcIzp lo => [0x72, lo]
  | .adcZpx lo => [0x75, lo]
  | .adcAby addr => [0x79, lo8 addr, hi8 addr]
  | .adcAbx addr => [0x7D, lo8 addr, hi8 addr]
  | .sbcIzx lo => [0xE1, lo]
  | .sbcZp lo => [0xE5, lo]
  | .sbcImm v => [0xE9, v]
  | .sbcAbs addr => [0xED, lo8 addr, hi8 addr]
  | .sbcIzy lo => [0xF1, lo]
  | .sbcIzp lo => [0xF2, lo]
  | .sbcZpx lo => [0xF5, lo]
  | .sbcAby addr => [0xF9, lo8 addr, hi8 addr]
  | .sbcAbx addr => [0xFD, lo8 addr, hi8 addr]
  | .andIzx lo => [0x21, lo]
  | .andZp lo => [0x25, lo]
  | .andImm v => [0x29, v]
  | .andAbs addr => [0x2D, lo8 addr, hi8 addr]
  | .andIzy lo => [0x31, lo]
  | .andIzp lo => [0x32, lo]
  | .andZpx lo => [0x35, lo]
  | .andAby addr => [0x39, lo8 addr, hi8 addr]
  | .andAbx addr => [0x3D, lo8 addr, hi8 addr]
  | .oraIzx lo => [0x01, lo]
  | .oraZp lo => [0x05, lo]
  | .oraImm v => [0x09, v]
  | .oraAbs addr => [0x0D, lo8 addr, hi8 addr]
  | .oraIzy lo => [0x11, lo]
  | .oraIzp lo => [0x12, lo]
  | .oraZpx lo => [0x15, lo]
  | .oraAby addr => [0x19, lo8 addr, hi8 addr]
  | .oraAbx addr => [0x1D, lo8 addr, hi8 addr]
  | .eorIzx lo => [0x41, lo]
  | .eorZp lo => [0x45, lo]
  | .eorImm v => [0x49, v]
  | .eorAbs addr => [0x4D, lo8 addr, hi8 addr]
  | .eorIzy lo => [0x51, lo]
  | .eorIzp lo => [0x52, lo]
  | .eorZpx lo => [0x55, lo]
  | .eorAby addr => [0x59, lo8 addr, hi8 addr]
  | .eorAbx addr => [0x5D, lo8 addr, hi8 addr]
  | .cmpIzx lo => [0xC1, lo]
  | .cmpZp lo => [0xC5, lo]
  | .cmpImm v => [0xC9, v]
  | .cmpAbs addr => [0xCD, lo8 addr, hi8 addr]
  | .cmpIzy lo => [0xD1, lo]
  | .cmpIzp lo => [0xD2, lo]
  | .cmpZpx lo => [0xD5, lo]
  | .cmpAby addr => [0xD9, lo8 addr, hi8 addr]
  | .cmpAbx addr => [0xDD, lo8 addr, hi8 addr]
  | .cpxImm v => [0xE0, v]
  | .cpxZp lo => [0xE4, lo]
  | .cpxAbs addr => [0xEC, lo8 addr, hi8 addr]
  | .cpyImm v => [0xC0, v]
  | .cpyZp lo => [0xC4, lo]
  | .cpyAbs addr => [0xCC, lo8 addr, hi8 addr]
  | .bitZp lo => [0x24, lo]
  | .bitAbs addr => [0x2C, lo8 addr, hi8 addr]
  | .bitZpx lo => [0x34, lo]
  | .bitAbx addr => [0x3C, lo8 addr, hi8 addr]
  | .bitImm v => [0x89, v]
  | .tsbZp lo => [0x04, lo]
  | .tsbAbs addr => [0x0C, lo8 addr, hi8 addr]
  | .trbZp lo => [0x14, lo]
  | .trbAbs addr => [0x1C, lo8 addr, hi8 addr]
  | .aslZp lo => [0x06, lo]
  | .aslAcc => [0x0A]
  | .aslAbs addr => [0x0E, lo8 addr, hi8 addr]
  | .aslZpx lo => [0x16, lo]
  | .aslAbx addr => [0x1E, lo8 addr, hi8 addr]
  | .lsrZp lo => [0x46, lo]
  | .lsrAcc => [0x4A]
  | .lsrAbs addr => [0x4E, lo8 addr, hi8 addr]
  | .lsrZpx lo => [0x56, lo]
  | .lsrAbx addr => [0x5E, lo8 addr, hi8 addr]
  | .rolZp lo => [0x26, lo]
  | .rolAcc => [0x2A]
  | .rolAbs addr => [0x2E, lo8 addr, hi8 addr]
  | .rolZpx lo => [0x36, lo]
  | .rolAbx addr => [0x3E, lo8 addr, hi8 addr]
  | .rorZp lo => [0x66, lo]
  | .rorAcc => [0x6A]
  | .rorAbs addr => [0x6E, lo8 addr, hi8 addr]
  | .rorZpx lo => [0x76, lo]
  | .rorAbx addr => [0x7E, lo8 addr, hi8 addr]
  | .incAcc => [0x1A]
  | .incZp lo => [0xE6, lo]
  | .incAbs addr => [0xEE, lo8 addr, hi8 addr]
  | .incZpx lo => [0xF6, lo]
  | .incAbx addr => [0xFE, lo8 addr, hi8 addr]
  | .decAcc => [0x3A]
  | .decZp lo => [0xC6, lo]
  | .decAbs addr => [0xCE, lo8 addr, hi8 addr]
  | .decZpx lo => [0xD6, lo]
  | .decAbx addr => [0xDE, lo8 addr, hi8 addr]
  | .inx => [0xE8]
  | .iny => [0xC8]
  | .dex => [0xCA]
  | .dey => [0x88]
  | .rmb0 lo => [0x07, lo]
  | .rmb1 lo => [0x17, lo]
  | .rmb2 lo => [0x27, lo]
  | .rmb3 lo => [0x37, lo]
  | .rmb4 lo => [0x47, lo]
  | .rmb5 lo => [0x57, lo]
  | .rmb6 lo => [0x67, lo]
  | .rmb7 lo => [0x77, lo]
  | .smb0 lo => [0x87, lo]
  | .smb1 lo => [0x97, lo]
  | .smb2 lo => [0xA7, lo]
  | .smb3 lo => [0xB7, lo]
  | .smb4 lo => [0xC7, lo]
  | .smb5 lo => [0xD7, lo]
  | .smb6 lo => [0xE7, lo]
  | .smb7 lo => [0xF7, lo]
  | .bbr0 lo off => [0x0F, lo, off]
  | .bbr1 lo off => [0x1F, lo, off]
  | .bbr2 lo off => [0x2F, lo, off]
  | .bbr3 lo off => [0x3F, lo, off]
  | .bbr4 lo off => [0x4F, lo, off]
  | .bbr5 lo off => [0x5F, lo, off]
  | .bbr6 lo off => [0x6F, lo, off]
  | .bbr7 lo off => [0x7F, lo, off]
  | .bbs0 lo off => [0x8F, lo, off]
  | .bbs1 lo off => [0x9F, lo, off]
  | .bbs2 lo off => [0xAF, lo, off]
  | .bbs3 lo off => [0xBF, lo, off]
  | .bbs4 lo off => [0xCF, lo, off]
  | .bbs5 lo off => [0xDF, lo, off]
  | .bbs6 lo off => [0xEF, lo, off]
  | .bbs7 lo off => [0xFF, lo, off]
  | .bcc off => [0x90, off]
  | .bcs off => [0xB0, off]
  | .beq off => [0xF0, off]
  | .bne off => [0xD0, off]
  | .bmi off => [0x30, off]
  | .bpl off => [0x10, off]
  | .bvc off => [0x50, off]
  | .bvs off => [0x70, off]
  | .bra off => [0x80, off]
  | .jmpAbs addr => [0x4C, lo8 addr, hi8 addr]
  | .jmpInd addr => [0x6C, lo8 addr, hi8 addr]
  | .jmpIax addr => [0x7C, lo8 addr, hi8 addr]
  | .jsr addr => [0x20, lo8 addr, hi8 addr]
  | .rts => [0x60]
  | .pha => [0x48]
  | .phx => [0xDA]
  | .phy => [0x5A]
  | .php => [0x08]
  | .pla => [0x68]
  | .plx => [0xFA]
  | .ply => [0x7A]
  | .plp => [0x28]
  | .clc => [0x18]
  | .sec => [0x38]
  | .cli => [0x58]
  | .sei => [0x78]
  | .cld => [0xD8]
  | .sed => [0xF8]
  | .clv => [0xB8]
  | .nop => [0xEA]
  | .brk => [0x00]
  | .rti => [0x40]
  | .wai => [0xCB]
  | .stp => [0xDB]
  | .res02 lo => [0x02, lo]
  | .res22 lo => [0x22, lo]
  | .res42 lo => [0x42, lo]
  | .res44 lo => [0x44, lo]
  | .res54 lo => [0x54, lo]
  | .res5C lo hi => [0x5C, lo, hi]
  | .res62 lo => [0x62, lo]
  | .res82 lo => [0x82, lo]
  | .resC2 lo => [0xC2, lo]
  | .resD4 lo => [0xD4, lo]
  | .resDC lo hi => [0xDC, lo, hi]
  | .resE2 lo => [0xE2, lo]
  | .resF4 lo => [0xF4, lo]
  | .resFC lo hi => [0xFC, lo, hi]
  | .res03 => [0x03]
  | .res0B => [0x0B]
  | .res13 => [0x13]
  | .res1B => [0x1B]
  | .res23 => [0x23]
  | .res2B => [0x2B]
  | .res33 => [0x33]
  | .res3B => [0x3B]
  | .res43 => [0x43]
  | .res4B => [0x4B]
  | .res53 => [0x53]
  | .res5B => [0x5B]
  | .res63 => [0x63]
  | .res6B => [0x6B]
  | .res73 => [0x73]
  | .res7B => [0x7B]
  | .res83 => [0x83]
  | .res8B => [0x8B]
  | .res93 => [0x93]
  | .res9B => [0x9B]
  | .resA3 => [0xA3]
  | .resAB => [0xAB]
  | .resB3 => [0xB3]
  | .resBB => [0xBB]
  | .resC3 => [0xC3]
  | .resD3 => [0xD3]
  | .resE3 => [0xE3]
  | .resEB => [0xEB]
  | .resF3 => [0xF3]
  | .resFB => [0xFB]

/-- The three bytes of a numbered instruction word: bit 0 is the least significant bit of the first byte, and every bit
from `nbits` up is 0. -/
def tableWordBytes (nbits w : Nat) : List Byte :=
  let v := w % 2 ^ nbits
  [BitVec.ofNat 8 v, BitVec.ofNat 8 (v / 256), BitVec.ofNat 8 (v / 65536)]

/-- What the decoder reads from a word numbered as spec/opcode_table.json numbers it. -/
def decodeTableWord (nbits w : Nat) : Option Instr :=
  match decode (tableWordBytes nbits w) with
  | .ok (i, _) => some i
  | .error _ => none

/-- `disassemble fuel base buf` (R431): the instructions of a byte buffer with their addresses, from offset 0 on. It
stops when the next instruction's address would fall outside the buffer or wrap past the 16-bit ceiling, and at an
instruction whose bytes the buffer does not hold whole (log 18). -/
def disassembleFrom : Nat → Nat → List Byte → List (Word × Instr)
  | 0, _, _ => []
  | fuel + 1, addr, buf =>
    if addr < 65536 then
      match decode buf with
      | .ok (i, rest) => (BitVec.ofNat 16 addr, i) :: disassembleFrom fuel (addr + (buf.length - rest.length)) rest
      | .error _ => []
    else []

/-- The disassembly of a whole buffer (R431): an instruction takes at least one byte, so the length is fuel enough. -/
def disassemble (base : Word) (buf : List Byte) : List (Word × Instr) :=
  disassembleFrom buf.length base.toNat buf

end Sys2Proof
end

