-- ==== Sys2Proof/Machine/Via.lean ====
section
/-! DEFINITION. The VIA's register file (60_exceptions.md part B): the bit-subset primitives, port multiplexing, the
register index map, read and write. -/

namespace Sys2Proof.Machine

/-- The bits of `v` where the mask has a 1, in ascending order (R351), on lists of bits, lowest first. -/
def packBits : List Bool → List Bool → List Bool
  | v :: vs, m :: ms => if m then v :: packBits vs ms else packBits vs ms
  | _, _ => []

/-- The inverse scatter of `packBits` (R351): the bits of `q` go to the places of the mask's ones, lowest first; a place
for which `q` has no bit left is 0. -/
def unpackBits : List Bool → List Bool → List Bool
  | q, false :: ms => false :: unpackBits q ms
  | b :: q, true :: ms => b :: unpackBits q ms
  | [], true :: ms => false :: unpackBits [] ms
  | _, [] => []

/-- The bits of a word, lowest first. -/
def bitsOf {w : Nat} (v : BitVec w) : List Bool := List.ofFn fun i : Fin w => v.getLsbD i

/-- The word of a list of bits, lowest first; bits past the width are dropped. -/
def ofBits (w : Nat) (bs : List Bool) : BitVec w :=
  BitVec.ofNat w (bs.foldr (fun b n => b.toNat + 2 * n) 0)

/-- `pack(v, m)` (R351). -/
def pack {w : Nat} (v m : BitVec w) : BitVec w := ofBits w (packBits (bitsOf v) (bitsOf m))

/-- `unpack(q, m)` (R351). -/
def unpack {w : Nat} (q m : BitVec w) : BitVec w := ofBits w (unpackBits (bitsOf q) (bitsOf m))

/-- `PortA(pinA)` (R354): bit by bit the output latch where the direction is output, else the pin. -/
def Via.portA (d : Via) (pinA : Byte) : Byte := (d.ora &&& d.ddra) ||| (pinA &&& ~~~d.ddra)

/-- `PortB(pinB)` (R354). -/
def Via.portB (d : Via) (pinB : Byte) : Byte := (d.orb &&& d.ddrb) ||| (pinB &&& ~~~d.ddrb)

/-- `VIA.read(i, pinA, pinB)` (R352, R355); it changes no register. -/
def Via.read (d : Via) (i : BitVec 4) (pinA pinB : Byte) : Byte :=
  match i.toNat with
  | 0 => d.portB pinB
  | 1 => d.portA pinA
  | 2 => d.ddrb
  | 3 => d.ddra
  | 4 => lo8 d.t1c
  | 5 => hi8 d.t1c
  | 6 => lo8 d.t1l
  | 7 => hi8 d.t1l
  | 8 => lo8 d.t2c
  | 9 => hi8 d.t2c
  | 10 => d.sr
  | 11 => d.acr
  | 12 => d.pcr
  | 13 => d.ifr
  | 14 => d.ier
  | _ => d.portA pinA

/-- `VIA.write(i, v)` (R352, R353): exactly the register or register half of the index. -/
def Via.write (d : Via) (i : BitVec 4) (v : Byte) : Via :=
  match i.toNat with
  | 0 => { d with orb := v }
  | 1 => { d with ora := v }
  | 2 => { d with ddrb := v }
  | 3 => { d with ddra := v }
  | 4 => { d with t1c := wordOf v (hi8 d.t1c) }
  | 5 => { d with t1c := wordOf (lo8 d.t1c) v }
  | 6 => { d with t1l := wordOf v (hi8 d.t1l) }
  | 7 => { d with t1l := wordOf (lo8 d.t1l) v }
  | 8 => { d with t2c := wordOf v (hi8 d.t2c) }
  | 9 => { d with t2c := wordOf (lo8 d.t2c) v }
  | 10 => { d with sr := v }
  | 11 => { d with acr := v }
  | 12 => { d with pcr := v }
  | 13 => { d with ifr := v }
  | 14 => { d with ier := v }
  | _ => { d with ora := v }

end Sys2Proof.Machine
end

