-- ==== Sys2Proof/Machine/Bus.lean ====
section
/-! DEFINITION. The bus (20_memory.md): the address map, the VIA-to-LCD coupling (60_exceptions.md part E), and the one
byte-wide read and write through which the CPU reaches everything (R61 to R63). -/

namespace Sys2Proof.Machine

/-- The devices an address can resolve to (R64). -/
inductive Region where
  | ram
  | uart
  | viaLcd
  | unmapped
  | rom
  deriving DecidableEq, Repr

/-- The address map (R62, R64): the first range that holds the address. -/
def region (addr : Word) : Region :=
  if addr.toNat ≤ 0x3FFF then .ram
  else if addr.toNat ≤ 0x5FFF then .uart
  else if addr.toNat ≤ 0x7FFF then .viaLcd
  else if addr.toNat ≤ 0xDFFF then .unmapped
  else .rom

/-- `addr & 3`: the UART's register index (R67). -/
def uartIndex (addr : Word) : BitVec 2 := addr.setWidth 2

/-- `addr & 15`: the VIA's register index (R68). -/
def viaIndex (addr : Word) : BitVec 4 := addr.setWidth 4

/-- `LcdCouple(pinA, pinB)` (R410): with the gate bit of port A at 1 the LCD is invoked in this access; the byte is the
level of port B's pins for the access. -/
def lcdCouple (pinA pinB : Byte) (s : State) : Byte × State :=
  let pa := s.via.portA pinA
  if pa.getLsbD Config.lcdEBit then
    let r := s.lcd.execute (pa.getLsbD Config.lcdRsBit) (pa.getLsbD Config.lcdRwBit) (s.via.portB pinB)
    (r.1.getD pinB, { s with lcd := r.2 })
  else (pinB, s)

/-- `ViaLcdRead(i)` with given pin levels (R411): the LCD first, then the VIA. -/
def viaLcdRead (i : BitVec 4) (pinA pinB : Byte) (s : State) : Byte × State :=
  let r := lcdCouple pinA pinB s
  (r.2.via.read i pinA r.1, r.2)

/-- `ViaLcdWrite(i, v)` with given pin levels (R412): the VIA first, then the LCD. -/
def viaLcdWrite (i : BitVec 4) (v : Byte) (pinA pinB : Byte) (s : State) : State :=
  (lcdCouple pinA pinB { s with via := s.via.write i v }).2

/-- One bus read with given pin levels: `load(addr, paIn, pbIn)` (R62, R72). -/
def busRead (pinA pinB : Byte) (addr : Word) (s : State) : Byte × State :=
  match region addr with
  | .ram => (Memory.read s.mem (ramAddr addr.toNat), s)
  | .uart =>
    let r := s.uart.read (uartIndex addr)
    (r.1, { s with uart := r.2 })
  | .viaLcd => viaLcdRead (viaIndex addr) pinA pinB s
  | .unmapped => (Config.unmappedRead, s)
  | .rom => (Memory.read s.mem (romAddr (addr.toNat - 0xE000)), s)

/-- One bus write with given pin levels (R63). -/
def busWrite (pinA pinB : Byte) (addr : Word) (v : Byte) (s : State) : State :=
  match region addr with
  | .ram => { s with mem := Memory.write s.mem (ramAddr addr.toNat) v }
  | .uart => { s with uart := s.uart.write (uartIndex addr) v }
  | .viaLcd => viaLcdWrite (viaIndex addr) v pinA pinB s
  | .unmapped => s
  | .rom =>
    if Config.romBusWritable then { s with mem := Memory.write s.mem (romAddr (addr.toNat - 0xE000)) v } else s

/-- The state with the next pin draw taken, if the access is one that draws the pins (R356; log 4). -/
def drawPins (addr : Word) (s : State) : State :=
  if region addr = .viaLcd then { s with pinDraws := s.pinDraws + 1 } else s

/-- `MemRead(addr, 1)` (R62): an access to the VIA window takes a fresh pair of pin levels (R356). -/
def memRead (addr : Word) (s : State) : Byte × State :=
  busRead (Config.pinAIn s.pinDraws) (Config.pinBIn s.pinDraws) addr (drawPins addr s)

/-- `MemWrite(addr, 1, v)` (R63): an access to the VIA window takes a fresh pair of pin levels (R356). -/
def memWrite (addr : Word) (v : Byte) (s : State) : State :=
  busWrite (Config.pinAIn s.pinDraws) (Config.pinBIn s.pinDraws) addr v (drawPins addr s)

end Sys2Proof.Machine
end

