-- ==== Sys2Proof/Machine/Flags.lean ====
section
/-! DEFINITION. The status register `P` and every flag computation: the bits of `P` (R24), `setNZ` (R27), the adder
(R170), compare (R176). -/

namespace Sys2Proof.Machine

/-- Bit `i` of a byte set to `b`, the others kept. -/
def withBit (v : Byte) (i : Nat) (b : Bool) : Byte :=
  if b then v ||| (1#8 <<< i) else v &&& ~~~(1#8 <<< i)

/-- `P.C`, bit 0 (R24). -/
def State.flagC (s : State) : Bool := s.p.getLsbD 0
/-- `P.Z`, bit 1 (R24). -/
def State.flagZ (s : State) : Bool := s.p.getLsbD 1
/-- `P.I`, bit 2 (R24). -/
def State.flagI (s : State) : Bool := s.p.getLsbD 2
/-- `P.D`, bit 3 (R24). -/
def State.flagD (s : State) : Bool := s.p.getLsbD 3
/-- `P.B`, bit 4 (R24, R26). -/
def State.flagB (s : State) : Bool := s.p.getLsbD 4
/-- `P.U`, bit 5 (R24, R25). -/
def State.flagU (s : State) : Bool := s.p.getLsbD 5
/-- `P.V`, bit 6 (R24). -/
def State.flagV (s : State) : Bool := s.p.getLsbD 6
/-- `P.N`, bit 7 (R24). -/
def State.flagN (s : State) : Bool := s.p.getLsbD 7

/-- `P.C <- b`. -/
def State.setC (s : State) (b : Bool) : State := { s with p := withBit s.p 0 b }
/-- `P.Z <- b`. -/
def State.setZ (s : State) (b : Bool) : State := { s with p := withBit s.p 1 b }
/-- `P.I <- b`. -/
def State.setI (s : State) (b : Bool) : State := { s with p := withBit s.p 2 b }
/-- `P.D <- b`. -/
def State.setD (s : State) (b : Bool) : State := { s with p := withBit s.p 3 b }
/-- `P.V <- b`. -/
def State.setV (s : State) (b : Bool) : State := { s with p := withBit s.p 6 b }
/-- `P.N <- b`. -/
def State.setN (s : State) (b : Bool) : State := { s with p := withBit s.p 7 b }

/-- `setNZ(v)` (R27): N is bit 7 of the result, Z says that it is 0. -/
def State.setNZ (s : State) (v : Byte) : State := (s.setN (v.getLsbD 7)).setZ (v == 0)

/-- `P <- v | 0x20`: a load of `P` from memory forces bit 5 (R25, R287, R301). -/
def State.loadP (s : State) (v : Byte) : State := { s with p := v ||| 0x20 }

/-- `P | 0x30`: the byte PHP and BRK push, bits 4 and 5 set (R26, R283, R300). -/
def State.pushedP (s : State) : Byte := s.p ||| 0x30

/-- What the adder gives (R170): the result, the carry out and the signed overflow. -/
structure AddResult where
  r : Byte
  cout : Bool
  v : Bool
  deriving DecidableEq, Repr

/-- `add8(a, m, c)` (R170): the 9-bit sum. -/
def add8 (a m : Byte) (c : Bool) : AddResult :=
  let sum := a.toNat + m.toNat + c.toNat
  let r := BitVec.ofNat 8 sum
  { r := r, cout := decide (sum > 255),
    v := (a.getLsbD 7 == m.getLsbD 7) && (r.getLsbD 7 != a.getLsbD 7) }

/-- `compare(R, M)` (R176): subtract with the carry input 1, the result discarded, V not written. -/
def compareReg (reg m : Byte) (s : State) : State :=
  let d := add8 reg (~~~m) true
  (s.setC d.cout).setNZ d.r

end Sys2Proof.Machine
end

