-- ==== Sys2Proof/Machine/Ops.lean ====
section
/-! DEFINITION. The named operations the meanings share: the stack (R30), a 16-bit read as two byte reads (R74, R76),
the trap entry of BRK (R300, R325) and the return from it (R301, R327). -/

namespace Sys2Proof.Machine

/-- The bus address of the stack cell that `sp` designates: always in page 0x01 (R22). -/
def stackAddr (sp : Byte) : Word := wordOf sp 0x01

/-- `push(v)` (R30): write, then decrement modulo 256. -/
def push (v : Byte) (s : State) : State :=
  let s := memWrite (stackAddr s.sp) v s
  { s with sp := s.sp - 1 }

/-- `pull()` (R30): increment modulo 256, then read. -/
def pull (s : State) : Byte × State :=
  let s := { s with sp := s.sp + 1 }
  memRead (stackAddr s.sp) s

/-- A word pushed high byte first, so that it lies little-endian in memory (R261, R300). -/
def pushWord (w : Word) (s : State) : State := push (lo8 w) (push (hi8 w) s)

/-- A word pulled low byte first (R262, R301). -/
def pullWord (s : State) : Word × State :=
  let l := pull s
  let h := pull l.2
  (wordOf l.1 h.1, h.2)

/-- A little-endian word read as two byte reads, low byte first, at the two given addresses (R74). -/
def readWordAt (aLo aHi : Word) (s : State) : Word × State :=
  let l := memRead aLo s
  let h := memRead aHi l.2
  (wordOf l.1 h.1, h.2)

/-- Taking the trap (R300, R325): the return address and `P | 0x30` are pushed, I is set, D is cleared, and `PC` is
loaded from the vector 0xFFFE/0xFFFF. -/
def takeTrap (ret : Word) (s : State) : State :=
  let s := pushWord ret s
  let s := push s.pushedP s
  let s := (s.setI true).setD false
  let t := readWordAt 0xFFFE 0xFFFF s
  { t.2 with pc := t.1 }

/-- Returning from the trap (R301, R327): `P` with bit 5 forced, then `PC`, from the stack. -/
def returnFromTrap (s : State) : State :=
  let v := pull s
  let t := pullWord (v.2.loadP v.1)
  { t.2 with pc := t.1 }

/-- The boot step (R32, R423): `PC` from the reset vector, low byte first, and `ST` running. -/
def boot (s : State) : State :=
  let t := readWordAt 0xFFFC 0xFFFD s
  { t.2 with pc := t.1, st := .running }

end Sys2Proof.Machine
end

