-- ==== Sys2Proof/Machine/Operands.lean ====
section
/-! DEFINITION. Operands (30_encoding.md section 3, R140, R200): effective addresses, operand reads and writes, the
read-modify-write forms, branch and indirect-jump targets. -/

namespace Sys2Proof.Machine

/-- The addressing modes that have an effective address (R104, R105, R107 to R109), each with its operand bytes. -/
inductive AddrMode where
  | zp (lo : Byte)
  | zpx (lo : Byte)
  | zpy (lo : Byte)
  | abs (addr : Word)
  | abx (addr : Word)
  | aby (addr : Word)
  | izx (lo : Byte)
  | izy (lo : Byte)
  | izp (lo : Byte)
  deriving DecidableEq, Repr

/-- The operand of an instruction that reads one: an immediate byte (R106) or a memory byte. -/
inductive Operand where
  | imm (v : Byte)
  | mem (m : AddrMode)
  deriving DecidableEq, Repr

/-- The word of a zero-page address (R104). -/
def zeroPage (lo : Byte) : Word := wordOf lo 0x00

/-- The pointer at a zero-page address: both bytes from page 0, low byte first (R107 to R109). -/
def readPointer (lo : Byte) (s : State) : Word × State := readWordAt (zeroPage lo) (zeroPage (lo + 1)) s

/-- `EA(m)` (R104, R105, R107 to R109, R140): the effective address, with the mode's pointer reads. -/
def effAddr (m : AddrMode) (s : State) : Word × State :=
  match m with
  | .zp lo => (zeroPage lo, s)
  | .zpx lo => (zeroPage (lo + s.x), s)
  | .zpy lo => (zeroPage (lo + s.y), s)
  | .abs addr => (addr, s)
  | .abx addr => (addr + s.x.setWidth 16, s)
  | .aby addr => (addr + s.y.setWidth 16, s)
  | .izx lo => readPointer (lo + s.x) s
  | .izy lo =>
    let p := readPointer lo s
    (p.1 + p.2.y.setWidth 16, p.2)
  | .izp lo => readPointer lo s

/-- `LoadOperand(m)` (R140): the immediate, or the pointer reads and then the data read. -/
def loadOperand (o : Operand) (s : State) : Byte × State :=
  match o with
  | .imm v => (v, s)
  | .mem m =>
    let e := effAddr m s
    memRead e.1 e.2

/-- `StoreOperand(m, v)` (R140): the pointer reads and then the one write. -/
def storeOperand (m : AddrMode) (v : Byte) (s : State) : State :=
  let e := effAddr m s
  memWrite e.1 v e.2

/-- The memory form of a read-modify-write instruction (R200, R76): the address once, one read, one write of `f v`, and
the flags from `v` and `f v`. -/
def modifyMem (m : AddrMode) (f : Byte → Byte) (flags : Byte → Byte → State → State) (s : State) : State :=
  let e := effAddr m s
  let r := memRead e.1 e.2
  flags r.1 (f r.1) (memWrite e.1 (f r.1) r.2)

/-- The accumulator form of the same (R200): no bus access. -/
def modifyA (f : Byte → Byte) (flags : Byte → Byte → State → State) (s : State) : State :=
  flags s.a (f s.a) { s with a := f s.a }

/-- `branch(cond)` (R250, R111): `PC` is the address of the next instruction; a taken branch adds the signed offset. -/
def branch (cond : Bool) (off : Byte) (s : State) : State :=
  if cond then { s with pc := s.pc + sext16 off } else s

/-- The address of the second pointer byte of JMP (absolute) (R110): within the page when `JMP_IND_PAGE_WRAP`, which
matters only where the low byte of the pointer is 0xFF. -/
def indirectHighAddr (addr : Word) : Word :=
  if lo8 addr = 0xFF then (if Config.jmpIndPageWrap then wordOf 0 (hi8 addr) else addr + 1) else addr + 1

end Sys2Proof.Machine
end

