-- ==== Sys2Proof/Machine/Alu.lean ====
section
/-! DEFINITION. Addition, subtraction, logic, compare and bit test (41_alu_logic_compare.md). Each rule's body is written once, over the operand; each opcode's meaning is one line over it. A meaning runs with `PC` already at the
next instruction (R101). -/

namespace Sys2Proof.Machine

/-- `A` plus a byte plus carry, with N, V, Z and C (R170, R171). -/
def addToA (m : Byte) (s : State) : State :=
  let d := add8 s.a m s.flagC
  (({ s with a := d.r }.setC d.cout).setV d.v).setNZ d.r

/-- ADC (R171); binary whatever `P.D` holds (R29). -/
def adc (o : Operand) (s : State) : State :=
  let r := loadOperand o s
  addToA r.1 r.2

/-- SBC (R172): the addition of the complement, the carry as not-borrow. -/
def sbc (o : Operand) (s : State) : State :=
  let r := loadOperand o s
  addToA (~~~r.1) r.2

/-- `A <- v; setNZ(A)`, the end of AND, ORA and EOR (R173 to R175). -/
def toA (v : Byte) (s : State) : State := { s with a := v }.setNZ v

/-- AND (R173). -/
def andA (o : Operand) (s : State) : State :=
  let r := loadOperand o s
  toA (r.2.a &&& r.1) r.2

/-- ORA (R174). -/
def oraA (o : Operand) (s : State) : State :=
  let r := loadOperand o s
  toA (r.2.a ||| r.1) r.2

/-- EOR (R175). -/
def eorA (o : Operand) (s : State) : State :=
  let r := loadOperand o s
  toA (r.2.a ^^^ r.1) r.2

/-- CMP: `compare(A, LoadOperand(m))` (R177). -/
def cmp (o : Operand) (s : State) : State :=
  let r := loadOperand o s
  compareReg r.2.a r.1 r.2

/-- CPX: `compare(X, LoadOperand(m))` (R178). -/
def cpx (o : Operand) (s : State) : State :=
  let r := loadOperand o s
  compareReg r.2.x r.1 r.2

/-- CPY: `compare(Y, LoadOperand(m))` (R179). -/
def cpy (o : Operand) (s : State) : State :=
  let r := loadOperand o s
  compareReg r.2.y r.1 r.2

/-- The operand form in which BIT writes N and V (R180): all but the immediate, and that one when `BIT_IMM_NV`. -/
def bitWritesNV : Operand → Bool
  | .imm _ => Config.bitImmNV
  | .mem _ => true

/-- BIT (R180): Z from `A & M`, N and V straight from bits 7 and 6 of M. -/
def bitTest (o : Operand) (s : State) : State :=
  let r := loadOperand o s
  let s := r.2.setZ (r.2.a &&& r.1 == 0)
  if bitWritesNV o then (s.setN (r.1.getLsbD 7)).setV (r.1.getLsbD 6) else s

/-- The one flag of TSB and TRB (R181, R182): Z from `A & M`, M the byte before the write. -/
def testFlag (v _r : Byte) (s : State) : State := s.setZ (s.a &&& v == 0)

/-- TSB (R181). -/
def tsb (m : AddrMode) (s : State) : State := modifyMem m (fun v => v ||| s.a) testFlag s

/-- TRB (R182). -/
def trb (m : AddrMode) (s : State) : State := modifyMem m (fun v => v &&& ~~~s.a) testFlag s

/-- `ADC` (zero page,X), opcode 0x61 (R171). -/
def execAdcIzx (lo : Byte) (s : State) : Host.Outcome State Fault Refusal :=
  .next (adc (.mem (.izx lo)) s)

/-- `ADC` zero page, opcode 0x65 (R171). -/
def execAdcZp (lo : Byte) (s : State) : Host.Outcome State Fault Refusal :=
  .next (adc (.mem (.zp lo)) s)

/-- `ADC` immediate, opcode 0x69 (R171). -/
def execAdcImm (v : Byte) (s : State) : Host.Outcome State Fault Refusal :=
  .next (adc (.imm v) s)

/-- `ADC` absolute, opcode 0x6D (R171). -/
def execAdcAbs (addr : Word) (s : State) : Host.Outcome State Fault Refusal :=
  .next (adc (.mem (.abs addr)) s)

/-- `ADC` (zero page),Y, opcode 0x71 (R171). -/
def execAdcIzy (lo : Byte) (s : State) : Host.Outcome State Fault Refusal :=
  .next (adc (.mem (.izy lo)) s)

/-- `ADC` (zero page), opcode 0x72 (R171). -/
def execAdcIzp (lo : Byte) (s : State) : Host.Outcome State Fault Refusal :=
  .next (adc (.mem (.izp lo)) s)

/-- `ADC` zero page,X, opcode 0x75 (R171). -/
def execAdcZpx (lo : Byte) (s : State) : Host.Outcome State Fault Refusal :=
  .next (adc (.mem (.zpx lo)) s)

/-- `ADC` absolute,Y, opcode 0x79 (R171). -/
def execAdcAby (addr : Word) (s : State) : Host.Outcome State Fault Refusal :=
  .next (adc (.mem (.aby addr)) s)

/-- `ADC` absolute,X, opcode 0x7D (R171). -/
def execAdcAbx (addr : Word) (s : State) : Host.Outcome State Fault Refusal :=
  .next (adc (.mem (.abx addr)) s)

/-- `SBC` (zero page,X), opcode 0xE1 (R172). -/
def execSbcIzx (lo : Byte) (s : State) : Host.Outcome State Fault Refusal :=
  .next (sbc (.mem (.izx lo)) s)

/-- `SBC` zero page, opcode 0xE5 (R172). -/
def execSbcZp (lo : Byte) (s : State) : Host.Outcome State Fault Refusal :=
  .next (sbc (.mem (.zp lo)) s)

/-- `SBC` immediate, opcode 0xE9 (R172). -/
def execSbcImm (v : Byte) (s : State) : Host.Outcome State Fault Refusal :=
  .next (sbc (.imm v) s)

/-- `SBC` absolute, opcode 0xED (R172). -/
def execSbcAbs (addr : Word) (s : State) : Host.Outcome State Fault Refusal :=
  .next (sbc (.mem (.abs addr)) s)

/-- `SBC` (zero page),Y, opcode 0xF1 (R172). -/
def execSbcIzy (lo : Byte) (s : State) : Host.Outcome State Fault Refusal :=
  .next (sbc (.mem (.izy lo)) s)

/-- `SBC` (zero page), opcode 0xF2 (R172). -/
def execSbcIzp (lo : Byte) (s : State) : Host.Outcome State Fault Refusal :=
  .next (sbc (.mem (.izp lo)) s)

/-- `SBC` zero page,X, opcode 0xF5 (R172). -/
def execSbcZpx (lo : Byte) (s : State) : Host.Outcome State Fault Refusal :=
  .next (sbc (.mem (.zpx lo)) s)

/-- `SBC` absolute,Y, opcode 0xF9 (R172). -/
def execSbcAby (addr : Word) (s : State) : Host.Outcome State Fault Refusal :=
  .next (sbc (.mem (.aby addr)) s)

/-- `SBC` absolute,X, opcode 0xFD (R172). -/
def execSbcAbx (addr : Word) (s : State) : Host.Outcome State Fault Refusal :=
  .next (sbc (.mem (.abx addr)) s)

/-- `AND` (zero page,X), opcode 0x21 (R173). -/
def execAndIzx (lo : Byte) (s : State) : Host.Outcome State Fault Refusal :=
  .next (andA (.mem (.izx lo)) s)

/-- `AND` zero page, opcode 0x25 (R173). -/
def execAndZp (lo : Byte) (s : State) : Host.Outcome State Fault Refusal :=
  .next (andA (.mem (.zp lo)) s)

/-- `AND` immediate, opcode 0x29 (R173). -/
def execAndImm (v : Byte) (s : State) : Host.Outcome State Fault Refusal :=
  .next (andA (.imm v) s)

/-- `AND` absolute, opcode 0x2D (R173). -/
def execAndAbs (addr : Word) (s : State) : Host.Outcome State Fault Refusal :=
  .next (andA (.mem (.abs addr)) s)

/-- `AND` (zero page),Y, opcode 0x31 (R173). -/
def execAndIzy (lo : Byte) (s : State) : Host.Outcome State Fault Refusal :=
  .next (andA (.mem (.izy lo)) s)

/-- `AND` (zero page), opcode 0x32 (R173). -/
def execAndIzp (lo : Byte) (s : State) : Host.Outcome State Fault Refusal :=
  .next (andA (.mem (.izp lo)) s)

/-- `AND` zero page,X, opcode 0x35 (R173). -/
def execAndZpx (lo : Byte) (s : State) : Host.Outcome State Fault Refusal :=
  .next (andA (.mem (.zpx lo)) s)

/-- `AND` absolute,Y, opcode 0x39 (R173). -/
def execAndAby (addr : Word) (s : State) : Host.Outcome State Fault Refusal :=
  .next (andA (.mem (.aby addr)) s)

/-- `AND` absolute,X, opcode 0x3D (R173). -/
def execAndAbx (addr : Word) (s : State) : Host.Outcome State Fault Refusal :=
  .next (andA (.mem (.abx addr)) s)

/-- `ORA` (zero page,X), opcode 0x01 (R174). -/
def execOraIzx (lo : Byte) (s : State) : Host.Outcome State Fault Refusal :=
  .next (oraA (.mem (.izx lo)) s)

/-- `ORA` zero page, opcode 0x05 (R174). -/
def execOraZp (lo : Byte) (s : State) : Host.Outcome State Fault Refusal :=
  .next (oraA (.mem (.zp lo)) s)

/-- `ORA` immediate, opcode 0x09 (R174). -/
def execOraImm (v : Byte) (s : State) : Host.Outcome State Fault Refusal :=
  .next (oraA (.imm v) s)

/-- `ORA` absolute, opcode 0x0D (R174). -/
def execOraAbs (addr : Word) (s : State) : Host.Outcome State Fault Refusal :=
  .next (oraA (.mem (.abs addr)) s)

/-- `ORA` (zero page),Y, opcode 0x11 (R174). -/
def execOraIzy (lo : Byte) (s : State) : Host.Outcome State Fault Refusal :=
  .next (oraA (.mem (.izy lo)) s)

/-- `ORA` (zero page), opcode 0x12 (R174). -/
def execOraIzp (lo : Byte) (s : State) : Host.Outcome State Fault Refusal :=
  .next (oraA (.mem (.izp lo)) s)

/-- `ORA` zero page,X, opcode 0x15 (R174). -/
def execOraZpx (lo : Byte) (s : State) : Host.Outcome State Fault Refusal :=
  .next (oraA (.mem (.zpx lo)) s)

/-- `ORA` absolute,Y, opcode 0x19 (R174). -/
def execOraAby (addr : Word) (s : State) : Host.Outcome State Fault Refusal :=
  .next (oraA (.mem (.aby addr)) s)

/-- `ORA` absolute,X, opcode 0x1D (R174). -/
def execOraAbx (addr : Word) (s : State) : Host.Outcome State Fault Refusal :=
  .next (oraA (.mem (.abx addr)) s)

/-- `EOR` (zero page,X), opcode 0x41 (R175). -/
def execEorIzx (lo : Byte) (s : State) : Host.Outcome State Fault Refusal :=
  .next (eorA (.mem (.izx lo)) s)

/-- `EOR` zero page, opcode 0x45 (R175). -/
def execEorZp (lo : Byte) (s : State) : Host.Outcome State Fault Refusal :=
  .next (eorA (.mem (.zp lo)) s)

/-- `EOR` immediate, opcode 0x49 (R175). -/
def execEorImm (v : Byte) (s : State) : Host.Outcome State Fault Refusal :=
  .next (eorA (.imm v) s)

/-- `EOR` absolute, opcode 0x4D (R175). -/
def execEorAbs (addr : Word) (s : State) : Host.Outcome State Fault Refusal :=
  .next (eorA (.mem (.abs addr)) s)

/-- `EOR` (zero page),Y, opcode 0x51 (R175). -/
def execEorIzy (lo : Byte) (s : State) : Host.Outcome State Fault Refusal :=
  .next (eorA (.mem (.izy lo)) s)

/-- `EOR` (zero page), opcode 0x52 (R175). -/
def execEorIzp (lo : Byte) (s : State) : Host.Outcome State Fault Refusal :=
  .next (eorA (.mem (.izp lo)) s)

/-- `EOR` zero page,X, opcode 0x55 (R175). -/
def execEorZpx (lo : Byte) (s : State) : Host.Outcome State Fault Refusal :=
  .next (eorA (.mem (.zpx lo)) s)

/-- `EOR` absolute,Y, opcode 0x59 (R175). -/
def execEorAby (addr : Word) (s : State) : Host.Outcome State Fault Refusal :=
  .next (eorA (.mem (.aby addr)) s)

/-- `EOR` absolute,X, opcode 0x5D (R175). -/
def execEorAbx (addr : Word) (s : State) : Host.Outcome State Fault Refusal :=
  .next (eorA (.mem (.abx addr)) s)

/-- `CMP` (zero page,X), opcode 0xC1 (R177). -/
def execCmpIzx (lo : Byte) (s : State) : Host.Outcome State Fault Refusal :=
  .next (cmp (.mem (.izx lo)) s)

/-- `CMP` zero page, opcode 0xC5 (R177). -/
def execCmpZp (lo : Byte) (s : State) : Host.Outcome State Fault Refusal :=
  .next (cmp (.mem (.zp lo)) s)

/-- `CMP` immediate, opcode 0xC9 (R177). -/
def execCmpImm (v : Byte) (s : State) : Host.Outcome State Fault Refusal :=
  .next (cmp (.imm v) s)

/-- `CMP` absolute, opcode 0xCD (R177). -/
def execCmpAbs (addr : Word) (s : State) : Host.Outcome State Fault Refusal :=
  .next (cmp (.mem (.abs addr)) s)

/-- `CMP` (zero page),Y, opcode 0xD1 (R177). -/
def execCmpIzy (lo : Byte) (s : State) : Host.Outcome State Fault Refusal :=
  .next (cmp (.mem (.izy lo)) s)

/-- `CMP` (zero page), opcode 0xD2 (R177). -/
def execCmpIzp (lo : Byte) (s : State) : Host.Outcome State Fault Refusal :=
  .next (cmp (.mem (.izp lo)) s)

/-- `CMP` zero page,X, opcode 0xD5 (R177). -/
def execCmpZpx (lo : Byte) (s : State) : Host.Outcome State Fault Refusal :=
  .next (cmp (.mem (.zpx lo)) s)

/-- `CMP` absolute,Y, opcode 0xD9 (R177). -/
def execCmpAby (addr : Word) (s : State) : Host.Outcome State Fault Refusal :=
  .next (cmp (.mem (.aby addr)) s)

/-- `CMP` absolute,X, opcode 0xDD (R177). -/
def execCmpAbx (addr : Word) (s : State) : Host.Outcome State Fault Refusal :=
  .next (cmp (.mem (.abx addr)) s)

/-- `CPX` immediate, opcode 0xE0 (R178). -/
def execCpxImm (v : Byte) (s : State) : Host.Outcome State Fault Refusal :=
  .next (cpx (.imm v) s)

/-- `CPX` zero page, opcode 0xE4 (R178). -/
def execCpxZp (lo : Byte) (s : State) : Host.Outcome State Fault Refusal :=
  .next (cpx (.mem (.zp lo)) s)

/-- `CPX` absolute, opcode 0xEC (R178). -/
def execCpxAbs (addr : Word) (s : State) : Host.Outcome State Fault Refusal :=
  .next (cpx (.mem (.abs addr)) s)

/-- `CPY` immediate, opcode 0xC0 (R179). -/
def execCpyImm (v : Byte) (s : State) : Host.Outcome State Fault Refusal :=
  .next (cpy (.imm v) s)

/-- `CPY` zero page, opcode 0xC4 (R179). -/
def execCpyZp (lo : Byte) (s : State) : Host.Outcome State Fault Refusal :=
  .next (cpy (.mem (.zp lo)) s)

/-- `CPY` absolute, opcode 0xCC (R179). -/
def execCpyAbs (addr : Word) (s : State) : Host.Outcome State Fault Refusal :=
  .next (cpy (.mem (.abs addr)) s)

/-- `BIT` zero page, opcode 0x24 (R180). -/
def execBitZp (lo : Byte) (s : State) : Host.Outcome State Fault Refusal :=
  .next (bitTest (.mem (.zp lo)) s)

/-- `BIT` absolute, opcode 0x2C (R180). -/
def execBitAbs (addr : Word) (s : State) : Host.Outcome State Fault Refusal :=
  .next (bitTest (.mem (.abs addr)) s)

/-- `BIT` zero page,X, opcode 0x34 (R180). -/
def execBitZpx (lo : Byte) (s : State) : Host.Outcome State Fault Refusal :=
  .next (bitTest (.mem (.zpx lo)) s)

/-- `BIT` absolute,X, opcode 0x3C (R180). -/
def execBitAbx (addr : Word) (s : State) : Host.Outcome State Fault Refusal :=
  .next (bitTest (.mem (.abx addr)) s)

/-- `BIT` immediate, opcode 0x89 (R180). -/
def execBitImm (v : Byte) (s : State) : Host.Outcome State Fault Refusal :=
  .next (bitTest (.imm v) s)

/-- `TSB` zero page, opcode 0x04 (R181). -/
def execTsbZp (lo : Byte) (s : State) : Host.Outcome State Fault Refusal :=
  .next (tsb (.zp lo) s)

/-- `TSB` absolute, opcode 0x0C (R181). -/
def execTsbAbs (addr : Word) (s : State) : Host.Outcome State Fault Refusal :=
  .next (tsb (.abs addr) s)

/-- `TRB` zero page, opcode 0x14 (R182). -/
def execTrbZp (lo : Byte) (s : State) : Host.Outcome State Fault Refusal :=
  .next (trb (.zp lo) s)

/-- `TRB` absolute, opcode 0x1C (R182). -/
def execTrbAbs (addr : Word) (s : State) : Host.Outcome State Fault Refusal :=
  .next (trb (.abs addr) s)

end Sys2Proof.Machine
end

