-- ==== Sys2Proof/Machine/BitOps.lean ====
section
/-! DEFINITION. The bit-indexed families (43_bit_ops.md): one operation per family, the bit index supplied by the opcode (R230). Each rule's body is written once, over the operand; each opcode's meaning is one line over it. A meaning runs with `PC` already at the
next instruction (R101). -/

namespace Sys2Proof.Machine

/-- RMBn and SMBn write no flag (R231, R232). -/
def noFlags (_v _r : Byte) (s : State) : State := s

/-- RMBn (R231): bit `n` of the zero-page byte to 0. -/
def rmb (n : Nat) (lo : Byte) (s : State) : State := modifyMem (.zp lo) (fun v => v &&& ~~~(1#8 <<< n)) noFlags s

/-- SMBn (R232): bit `n` of the zero-page byte to 1. -/
def smb (n : Nat) (lo : Byte) (s : State) : State := modifyMem (.zp lo) (fun v => v ||| (1#8 <<< n)) noFlags s

/-- BBRn and BBSn (R233, R234): the zero-page byte is read, taken or not, and the branch is taken when bit `n` is `b`. -/
def branchOnBit (n : Nat) (b : Bool) (lo off : Byte) (s : State) : State :=
  let r := loadOperand (.mem (.zp lo)) s
  branch (r.1.getLsbD n == b) off r.2

/-- `RMB0` zero page, opcode 0x07 (R231). -/
def execRmb0 (lo : Byte) (s : State) : Host.Outcome State Fault Refusal :=
  .next (rmb 0 lo s)

/-- `RMB1` zero page, opcode 0x17 (R231). -/
def execRmb1 (lo : Byte) (s : State) : Host.Outcome State Fault Refusal :=
  .next (rmb 1 lo s)

/-- `RMB2` zero page, opcode 0x27 (R231). -/
def execRmb2 (lo : Byte) (s : State) : Host.Outcome State Fault Refusal :=
  .next (rmb 2 lo s)

/-- `RMB3` zero page, opcode 0x37 (R231). -/
def execRmb3 (lo : Byte) (s : State) : Host.Outcome State Fault Refusal :=
  .next (rmb 3 lo s)

/-- `RMB4` zero page, opcode 0x47 (R231). -/
def execRmb4 (lo : Byte) (s : State) : Host.Outcome State Fault Refusal :=
  .next (rmb 4 lo s)

/-- `RMB5` zero page, opcode 0x57 (R231). -/
def execRmb5 (lo : Byte) (s : State) : Host.Outcome State Fault Refusal :=
  .next (rmb 5 lo s)

/-- `RMB6` zero page, opcode 0x67 (R231). -/
def execRmb6 (lo : Byte) (s : State) : Host.Outcome State Fault Refusal :=
  .next (rmb 6 lo s)

/-- `RMB7` zero page, opcode 0x77 (R231). -/
def execRmb7 (lo : Byte) (s : State) : Host.Outcome State Fault Refusal :=
  .next (rmb 7 lo s)

/-- `SMB0` zero page, opcode 0x87 (R232). -/
def execSmb0 (lo : Byte) (s : State) : Host.Outcome State Fault Refusal :=
  .next (smb 0 lo s)

/-- `SMB1` zero page, opcode 0x97 (R232). -/
def execSmb1 (lo : Byte) (s : State) : Host.Outcome State Fault Refusal :=
  .next (smb 1 lo s)

/-- `SMB2` zero page, opcode 0xA7 (R232). -/
def execSmb2 (lo : Byte) (s : State) : Host.Outcome State Fault Refusal :=
  .next (smb 2 lo s)

/-- `SMB3` zero page, opcode 0xB7 (R232). -/
def execSmb3 (lo : Byte) (s : State) : Host.Outcome State Fault Refusal :=
  .next (smb 3 lo s)

/-- `SMB4` zero page, opcode 0xC7 (R232). -/
def execSmb4 (lo : Byte) (s : State) : Host.Outcome State Fault Refusal :=
  .next (smb 4 lo s)

/-- `SMB5` zero page, opcode 0xD7 (R232). -/
def execSmb5 (lo : Byte) (s : State) : Host.Outcome State Fault Refusal :=
  .next (smb 5 lo s)

/-- `SMB6` zero page, opcode 0xE7 (R232). -/
def execSmb6 (lo : Byte) (s : State) : Host.Outcome State Fault Refusal :=
  .next (smb 6 lo s)

/-- `SMB7` zero page, opcode 0xF7 (R232). -/
def execSmb7 (lo : Byte) (s : State) : Host.Outcome State Fault Refusal :=
  .next (smb 7 lo s)

/-- `BBR0`, opcode 0x0F (R233). -/
def execBbr0 (lo off : Byte) (s : State) : Host.Outcome State Fault Refusal :=
  .next (branchOnBit 0 false lo off s)

/-- `BBR1`, opcode 0x1F (R233). -/
def execBbr1 (lo off : Byte) (s : State) : Host.Outcome State Fault Refusal :=
  .next (branchOnBit 1 false lo off s)

/-- `BBR2`, opcode 0x2F (R233). -/
def execBbr2 (lo off : Byte) (s : State) : Host.Outcome State Fault Refusal :=
  .next (branchOnBit 2 false lo off s)

/-- `BBR3`, opcode 0x3F (R233). -/
def execBbr3 (lo off : Byte) (s : State) : Host.Outcome State Fault Refusal :=
  .next (branchOnBit 3 false lo off s)

/-- `BBR4`, opcode 0x4F (R233). -/
def execBbr4 (lo off : Byte) (s : State) : Host.Outcome State Fault Refusal :=
  .next (branchOnBit 4 false lo off s)

/-- `BBR5`, opcode 0x5F (R233). -/
def execBbr5 (lo off : Byte) (s : State) : Host.Outcome State Fault Refusal :=
  .next (branchOnBit 5 false lo off s)

/-- `BBR6`, opcode 0x6F (R233). -/
def execBbr6 (lo off : Byte) (s : State) : Host.Outcome State Fault Refusal :=
  .next (branchOnBit 6 false lo off s)

/-- `BBR7`, opcode 0x7F (R233). -/
def execBbr7 (lo off : Byte) (s : State) : Host.Outcome State Fault Refusal :=
  .next (branchOnBit 7 false lo off s)

/-- `BBS0`, opcode 0x8F (R234). -/
def execBbs0 (lo off : Byte) (s : State) : Host.Outcome State Fault Refusal :=
  .next (branchOnBit 0 true lo off s)

/-- `BBS1`, opcode 0x9F (R234). -/
def execBbs1 (lo off : Byte) (s : State) : Host.Outcome State Fault Refusal :=
  .next (branchOnBit 1 true lo off s)

/-- `BBS2`, opcode 0xAF (R234). -/
def execBbs2 (lo off : Byte) (s : State) : Host.Outcome State Fault Refusal :=
  .next (branchOnBit 2 true lo off s)

/-- `BBS3`, opcode 0xBF (R234). -/
def execBbs3 (lo off : Byte) (s : State) : Host.Outcome State Fault Refusal :=
  .next (branchOnBit 3 true lo off s)

/-- `BBS4`, opcode 0xCF (R234). -/
def execBbs4 (lo off : Byte) (s : State) : Host.Outcome State Fault Refusal :=
  .next (branchOnBit 4 true lo off s)

/-- `BBS5`, opcode 0xDF (R234). -/
def execBbs5 (lo off : Byte) (s : State) : Host.Outcome State Fault Refusal :=
  .next (branchOnBit 5 true lo off s)

/-- `BBS6`, opcode 0xEF (R234). -/
def execBbs6 (lo off : Byte) (s : State) : Host.Outcome State Fault Refusal :=
  .next (branchOnBit 6 true lo off s)

/-- `BBS7`, opcode 0xFF (R234). -/
def execBbs7 (lo off : Byte) (s : State) : Host.Outcome State Fault Refusal :=
  .next (branchOnBit 7 true lo off s)

end Sys2Proof.Machine
end

