-- ==== Sys2Proof/Machine/Control.lean ====
section
/-! DEFINITION. Branches, jumps and subroutines (44_control_flow.md). Each rule's body is written once, over the operand; each opcode's meaning is one line over it. A meaning runs with `PC` already at the
next instruction (R101). -/

namespace Sys2Proof.Machine

/-- JMP through a pointer (R260, R110): the target's low byte from the first address, its high byte from the second. -/
def jumpThrough (aLo aHi : Word) (s : State) : State :=
  let t := readWordAt aLo aHi s
  { t.2 with pc := t.1 }

/-- JSR (R261): the address of the instruction's own last byte is pushed. -/
def jsrTo (addr : Word) (s : State) : State := { pushWord (s.pc - 1) s with pc := addr }

/-- RTS (R262): the stacked word plus 1. -/
def rtsBody (s : State) : State :=
  let t := pullWord s
  { t.2 with pc := t.1 + 1 }

/-- `BCC`, opcode 0x90 (R251). -/
def execBcc (off : Byte) (s : State) : Host.Outcome State Fault Refusal :=
  .next (branch (!s.flagC) off s)

/-- `BCS`, opcode 0xB0 (R252). -/
def execBcs (off : Byte) (s : State) : Host.Outcome State Fault Refusal :=
  .next (branch s.flagC off s)

/-- `BEQ`, opcode 0xF0 (R253). -/
def execBeq (off : Byte) (s : State) : Host.Outcome State Fault Refusal :=
  .next (branch s.flagZ off s)

/-- `BNE`, opcode 0xD0 (R254). -/
def execBne (off : Byte) (s : State) : Host.Outcome State Fault Refusal :=
  .next (branch (!s.flagZ) off s)

/-- `BMI`, opcode 0x30 (R255). -/
def execBmi (off : Byte) (s : State) : Host.Outcome State Fault Refusal :=
  .next (branch s.flagN off s)

/-- `BPL`, opcode 0x10 (R256). -/
def execBpl (off : Byte) (s : State) : Host.Outcome State Fault Refusal :=
  .next (branch (!s.flagN) off s)

/-- `BVC`, opcode 0x50 (R257). -/
def execBvc (off : Byte) (s : State) : Host.Outcome State Fault Refusal :=
  .next (branch (!s.flagV) off s)

/-- `BVS`, opcode 0x70 (R258). -/
def execBvs (off : Byte) (s : State) : Host.Outcome State Fault Refusal :=
  .next (branch s.flagV off s)

/-- `BRA`, opcode 0x80 (R259). -/
def execBra (off : Byte) (s : State) : Host.Outcome State Fault Refusal :=
  .next (branch true off s)

/-- `JMP` absolute, opcode 0x4C (R260). -/
def execJmpAbs (addr : Word) (s : State) : Host.Outcome State Fault Refusal :=
  .next { s with pc := addr }

/-- `JMP` (absolute), opcode 0x6C (R260). -/
def execJmpInd (addr : Word) (s : State) : Host.Outcome State Fault Refusal :=
  .next (jumpThrough addr (indirectHighAddr addr) s)

/-- `JMP` (absolute,X), opcode 0x7C (R260). -/
def execJmpIax (addr : Word) (s : State) : Host.Outcome State Fault Refusal :=
  .next (jumpThrough (addr + s.x.setWidth 16) (addr + s.x.setWidth 16 + 1) s)

/-- `JSR` absolute, opcode 0x20 (R261). -/
def execJsr (addr : Word) (s : State) : Host.Outcome State Fault Refusal :=
  .next (jsrTo addr s)

/-- `RTS`, opcode 0x60 (R262). -/
def execRts (s : State) : Host.Outcome State Fault Refusal :=
  .next (rtsBody s)

end Sys2Proof.Machine
end

