-- ==== Sys2Proof/Machine/LoadStore.lean ====
section
/-! DEFINITION. Loads, stores and register transfers (40_load_store_transfer.md). Each rule's body is written once, over the operand; each opcode's meaning is one line over it. A meaning runs with `PC` already at the
next instruction (R101). -/

namespace Sys2Proof.Machine

/-- LDA: `A <- LoadOperand(m); setNZ(A)` (R141). -/
def lda (o : Operand) (s : State) : State :=
  let r := loadOperand o s
  { r.2 with a := r.1 }.setNZ r.1

/-- LDX: `X <- LoadOperand(m); setNZ(X)` (R142). -/
def ldx (o : Operand) (s : State) : State :=
  let r := loadOperand o s
  { r.2 with x := r.1 }.setNZ r.1

/-- LDY: `Y <- LoadOperand(m); setNZ(Y)` (R143). -/
def ldy (o : Operand) (s : State) : State :=
  let r := loadOperand o s
  { r.2 with y := r.1 }.setNZ r.1

/-- `LDA` (zero page,X), opcode 0xA1 (R141). -/
def execLdaIzx (lo : Byte) (s : State) : Host.Outcome State Fault Refusal :=
  .next (lda (.mem (.izx lo)) s)

/-- `LDA` zero page, opcode 0xA5 (R141). -/
def execLdaZp (lo : Byte) (s : State) : Host.Outcome State Fault Refusal :=
  .next (lda (.mem (.zp lo)) s)

/-- `LDA` immediate, opcode 0xA9 (R141). -/
def execLdaImm (v : Byte) (s : State) : Host.Outcome State Fault Refusal :=
  .next (lda (.imm v) s)

/-- `LDA` absolute, opcode 0xAD (R141). -/
def execLdaAbs (addr : Word) (s : State) : Host.Outcome State Fault Refusal :=
  .next (lda (.mem (.abs addr)) s)

/-- `LDA` (zero page),Y, opcode 0xB1 (R141). -/
def execLdaIzy (lo : Byte) (s : State) : Host.Outcome State Fault Refusal :=
  .next (lda (.mem (.izy lo)) s)

/-- `LDA` (zero page), opcode 0xB2 (R141). -/
def execLdaIzp (lo : Byte) (s : State) : Host.Outcome State Fault Refusal :=
  .next (lda (.mem (.izp lo)) s)

/-- `LDA` zero page,X, opcode 0xB5 (R141). -/
def execLdaZpx (lo : Byte) (s : State) : Host.Outcome State Fault Refusal :=
  .next (lda (.mem (.zpx lo)) s)

/-- `LDA` absolute,Y, opcode 0xB9 (R141). -/
def execLdaAby (addr : Word) (s : State) : Host.Outcome State Fault Refusal :=
  .next (lda (.mem (.aby addr)) s)

/-- `LDA` absolute,X, opcode 0xBD (R141). -/
def execLdaAbx (addr : Word) (s : State) : Host.Outcome State Fault Refusal :=
  .next (lda (.mem (.abx addr)) s)

/-- `LDX` immediate, opcode 0xA2 (R142). -/
def execLdxImm (v : Byte) (s : State) : Host.Outcome State Fault Refusal :=
  .next (ldx (.imm v) s)

/-- `LDX` zero page, opcode 0xA6 (R142). -/
def execLdxZp (lo : Byte) (s : State) : Host.Outcome State Fault Refusal :=
  .next (ldx (.mem (.zp lo)) s)

/-- `LDX` absolute, opcode 0xAE (R142). -/
def execLdxAbs (addr : Word) (s : State) : Host.Outcome State Fault Refusal :=
  .next (ldx (.mem (.abs addr)) s)

/-- `LDX` zero page,Y, opcode 0xB6 (R142). -/
def execLdxZpy (lo : Byte) (s : State) : Host.Outcome State Fault Refusal :=
  .next (ldx (.mem (.zpy lo)) s)

/-- `LDX` absolute,Y, opcode 0xBE (R142). -/
def execLdxAby (addr : Word) (s : State) : Host.Outcome State Fault Refusal :=
  .next (ldx (.mem (.aby addr)) s)

/-- `LDY` immediate, opcode 0xA0 (R143). -/
def execLdyImm (v : Byte) (s : State) : Host.Outcome State Fault Refusal :=
  .next (ldy (.imm v) s)

/-- `LDY` zero page, opcode 0xA4 (R143). -/
def execLdyZp (lo : Byte) (s : State) : Host.Outcome State Fault Refusal :=
  .next (ldy (.mem (.zp lo)) s)

/-- `LDY` absolute, opcode 0xAC (R143). -/
def execLdyAbs (addr : Word) (s : State) : Host.Outcome State Fault Refusal :=
  .next (ldy (.mem (.abs addr)) s)

/-- `LDY` zero page,X, opcode 0xB4 (R143). -/
def execLdyZpx (lo : Byte) (s : State) : Host.Outcome State Fault Refusal :=
  .next (ldy (.mem (.zpx lo)) s)

/-- `LDY` absolute,X, opcode 0xBC (R143). -/
def execLdyAbx (addr : Word) (s : State) : Host.Outcome State Fault Refusal :=
  .next (ldy (.mem (.abx addr)) s)

/-- `STA` (zero page,X), opcode 0x81 (R144). -/
def execStaIzx (lo : Byte) (s : State) : Host.Outcome State Fault Refusal :=
  .next (storeOperand (.izx lo) s.a s)

/-- `STA` zero page, opcode 0x85 (R144). -/
def execStaZp (lo : Byte) (s : State) : Host.Outcome State Fault Refusal :=
  .next (storeOperand (.zp lo) s.a s)

/-- `STA` absolute, opcode 0x8D (R144). -/
def execStaAbs (addr : Word) (s : State) : Host.Outcome State Fault Refusal :=
  .next (storeOperand (.abs addr) s.a s)

/-- `STA` (zero page),Y, opcode 0x91 (R144). -/
def execStaIzy (lo : Byte) (s : State) : Host.Outcome State Fault Refusal :=
  .next (storeOperand (.izy lo) s.a s)

/-- `STA` (zero page), opcode 0x92 (R144). -/
def execStaIzp (lo : Byte) (s : State) : Host.Outcome State Fault Refusal :=
  .next (storeOperand (.izp lo) s.a s)

/-- `STA` zero page,X, opcode 0x95 (R144). -/
def execStaZpx (lo : Byte) (s : State) : Host.Outcome State Fault Refusal :=
  .next (storeOperand (.zpx lo) s.a s)

/-- `STA` absolute,Y, opcode 0x99 (R144). -/
def execStaAby (addr : Word) (s : State) : Host.Outcome State Fault Refusal :=
  .next (storeOperand (.aby addr) s.a s)

/-- `STA` absolute,X, opcode 0x9D (R144). -/
def execStaAbx (addr : Word) (s : State) : Host.Outcome State Fault Refusal :=
  .next (storeOperand (.abx addr) s.a s)

/-- `STX` zero page, opcode 0x86 (R145). -/
def execStxZp (lo : Byte) (s : State) : Host.Outcome State Fault Refusal :=
  .next (storeOperand (.zp lo) s.x s)

/-- `STX` absolute, opcode 0x8E (R145). -/
def execStxAbs (addr : Word) (s : State) : Host.Outcome State Fault Refusal :=
  .next (storeOperand (.abs addr) s.x s)

/-- `STX` zero page,Y, opcode 0x96 (R145). -/
def execStxZpy (lo : Byte) (s : State) : Host.Outcome State Fault Refusal :=
  .next (storeOperand (.zpy lo) s.x s)

/-- `STY` zero page, opcode 0x84 (R146). -/
def execStyZp (lo : Byte) (s : State) : Host.Outcome State Fault Refusal :=
  .next (storeOperand (.zp lo) s.y s)

/-- `STY` absolute, opcode 0x8C (R146). -/
def execStyAbs (addr : Word) (s : State) : Host.Outcome State Fault Refusal :=
  .next (storeOperand (.abs addr) s.y s)

/-- `STY` zero page,X, opcode 0x94 (R146). -/
def execStyZpx (lo : Byte) (s : State) : Host.Outcome State Fault Refusal :=
  .next (storeOperand (.zpx lo) s.y s)

/-- `STZ` zero page, opcode 0x64 (R147). -/
def execStzZp (lo : Byte) (s : State) : Host.Outcome State Fault Refusal :=
  .next (storeOperand (.zp lo) 0x00 s)

/-- `STZ` zero page,X, opcode 0x74 (R147). -/
def execStzZpx (lo : Byte) (s : State) : Host.Outcome State Fault Refusal :=
  .next (storeOperand (.zpx lo) 0x00 s)

/-- `STZ` absolute, opcode 0x9C (R147). -/
def execStzAbs (addr : Word) (s : State) : Host.Outcome State Fault Refusal :=
  .next (storeOperand (.abs addr) 0x00 s)

/-- `STZ` absolute,X, opcode 0x9E (R147). -/
def execStzAbx (addr : Word) (s : State) : Host.Outcome State Fault Refusal :=
  .next (storeOperand (.abx addr) 0x00 s)

/-- `TAX`, opcode 0xAA (R148). -/
def execTax (s : State) : Host.Outcome State Fault Refusal :=
  .next ({ s with x := s.a }.setNZ s.a)

/-- `TAY`, opcode 0xA8 (R149). -/
def execTay (s : State) : Host.Outcome State Fault Refusal :=
  .next ({ s with y := s.a }.setNZ s.a)

/-- `TXA`, opcode 0x8A (R150). -/
def execTxa (s : State) : Host.Outcome State Fault Refusal :=
  .next ({ s with a := s.x }.setNZ s.x)

/-- `TYA`, opcode 0x98 (R151). -/
def execTya (s : State) : Host.Outcome State Fault Refusal :=
  .next ({ s with a := s.y }.setNZ s.y)

/-- `TSX`, opcode 0xBA (R152). -/
def execTsx (s : State) : Host.Outcome State Fault Refusal :=
  .next ({ s with x := s.sp }.setNZ s.sp)

/-- `TXS`, opcode 0x9A (R153). -/
def execTxs (s : State) : Host.Outcome State Fault Refusal :=
  .next { s with sp := s.x }

end Sys2Proof.Machine
end

