-- ==== Sys2Proof/Machine/Shift.lean ====
section
/-! DEFINITION. Shifts, rotates, increments and decrements (42_shift_incdec.md). Each rule's body is written once, over the operand; each opcode's meaning is one line over it. A meaning runs with `PC` already at the
next instruction (R101). -/

namespace Sys2Proof.Machine

/-- The flags of ASL and ROL (R201, R203): C is the old bit 7. -/
def leftFlags (v r : Byte) (s : State) : State := (s.setC (v.getLsbD 7)).setNZ r

/-- The flags of LSR and ROR (R202, R204): C is the old bit 0. -/
def rightFlags (v r : Byte) (s : State) : State := (s.setC (v.getLsbD 0)).setNZ r

/-- The flags of INC and DEC (R205, R206): N and Z alone. -/
def countFlags (_v r : Byte) (s : State) : State := s.setNZ r

/-- ASL's function (R201): `(2 * v) mod 256`. -/
def aslByte (v : Byte) : Byte := v <<< 1

/-- LSR's function (R202): `v >> 1`. -/
def lsrByte (v : Byte) : Byte := v >>> 1

/-- ROL's function (R203): the old carry enters bit 0. -/
def rolByte (cin : Bool) (v : Byte) : Byte := (v <<< 1) ||| (if cin then 0x01 else 0x00)

/-- ROR's function (R204): the old carry enters bit 7. -/
def rorByte (cin : Bool) (v : Byte) : Byte := (v >>> 1) ||| (if cin then 0x80 else 0x00)

/-- INC's function (R205). -/
def incByte (v : Byte) : Byte := v + 1

/-- DEC's function (R206). -/
def decByte (v : Byte) : Byte := v - 1

/-- `ASL` zero page, opcode 0x06 (R201). -/
def execAslZp (lo : Byte) (s : State) : Host.Outcome State Fault Refusal :=
  .next (modifyMem (.zp lo) aslByte leftFlags s)

/-- `ASL` accumulator, opcode 0x0A (R201). -/
def execAslAcc (s : State) : Host.Outcome State Fault Refusal :=
  .next (modifyA aslByte leftFlags s)

/-- `ASL` absolute, opcode 0x0E (R201). -/
def execAslAbs (addr : Word) (s : State) : Host.Outcome State Fault Refusal :=
  .next (modifyMem (.abs addr) aslByte leftFlags s)

/-- `ASL` zero page,X, opcode 0x16 (R201). -/
def execAslZpx (lo : Byte) (s : State) : Host.Outcome State Fault Refusal :=
  .next (modifyMem (.zpx lo) aslByte leftFlags s)

/-- `ASL` absolute,X, opcode 0x1E (R201). -/
def execAslAbx (addr : Word) (s : State) : Host.Outcome State Fault Refusal :=
  .next (modifyMem (.abx addr) aslByte leftFlags s)

/-- `LSR` zero page, opcode 0x46 (R202). -/
def execLsrZp (lo : Byte) (s : State) : Host.Outcome State Fault Refusal :=
  .next (modifyMem (.zp lo) lsrByte rightFlags s)

/-- `LSR` accumulator, opcode 0x4A (R202). -/
def execLsrAcc (s : State) : Host.Outcome State Fault Refusal :=
  .next (modifyA lsrByte rightFlags s)

/-- `LSR` absolute, opcode 0x4E (R202). -/
def execLsrAbs (addr : Word) (s : State) : Host.Outcome State Fault Refusal :=
  .next (modifyMem (.abs addr) lsrByte rightFlags s)

/-- `LSR` zero page,X, opcode 0x56 (R202). -/
def execLsrZpx (lo : Byte) (s : State) : Host.Outcome State Fault Refusal :=
  .next (modifyMem (.zpx lo) lsrByte rightFlags s)

/-- `LSR` absolute,X, opcode 0x5E (R202). -/
def execLsrAbx (addr : Word) (s : State) : Host.Outcome State Fault Refusal :=
  .next (modifyMem (.abx addr) lsrByte rightFlags s)

/-- `ROL` zero page, opcode 0x26 (R203). -/
def execRolZp (lo : Byte) (s : State) : Host.Outcome State Fault Refusal :=
  .next (modifyMem (.zp lo) (rolByte s.flagC) leftFlags s)

/-- `ROL` accumulator, opcode 0x2A (R203). -/
def execRolAcc (s : State) : Host.Outcome State Fault Refusal :=
  .next (modifyA (rolByte s.flagC) leftFlags s)

/-- `ROL` absolute, opcode 0x2E (R203). -/
def execRolAbs (addr : Word) (s : State) : Host.Outcome State Fault Refusal :=
  .next (modifyMem (.abs addr) (rolByte s.flagC) leftFlags s)

/-- `ROL` zero page,X, opcode 0x36 (R203). -/
def execRolZpx (lo : Byte) (s : State) : Host.Outcome State Fault Refusal :=
  .next (modifyMem (.zpx lo) (rolByte s.flagC) leftFlags s)

/-- `ROL` absolute,X, opcode 0x3E (R203). -/
def execRolAbx (addr : Word) (s : State) : Host.Outcome State Fault Refusal :=
  .next (modifyMem (.abx addr) (rolByte s.flagC) leftFlags s)

/-- `ROR` zero page, opcode 0x66 (R204). -/
def execRorZp (lo : Byte) (s : State) : Host.Outcome State Fault Refusal :=
  .next (modifyMem (.zp lo) (rorByte s.flagC) rightFlags s)

/-- `ROR` accumulator, opcode 0x6A (R204). -/
def execRorAcc (s : State) : Host.Outcome State Fault Refusal :=
  .next (modifyA (rorByte s.flagC) rightFlags s)

/-- `ROR` absolute, opcode 0x6E (R204). -/
def execRorAbs (addr : Word) (s : State) : Host.Outcome State Fault Refusal :=
  .next (modifyMem (.abs addr) (rorByte s.flagC) rightFlags s)

/-- `ROR` zero page,X, opcode 0x76 (R204). -/
def execRorZpx (lo : Byte) (s : State) : Host.Outcome State Fault Refusal :=
  .next (modifyMem (.zpx lo) (rorByte s.flagC) rightFlags s)

/-- `ROR` absolute,X, opcode 0x7E (R204). -/
def execRorAbx (addr : Word) (s : State) : Host.Outcome State Fault Refusal :=
  .next (modifyMem (.abx addr) (rorByte s.flagC) rightFlags s)

/-- `INC` accumulator, opcode 0x1A (R205). -/
def execIncAcc (s : State) : Host.Outcome State Fault Refusal :=
  .next (modifyA incByte countFlags s)

/-- `INC` zero page, opcode 0xE6 (R205). -/
def execIncZp (lo : Byte) (s : State) : Host.Outcome State Fault Refusal :=
  .next (modifyMem (.zp lo) incByte countFlags s)

/-- `INC` absolute, opcode 0xEE (R205). -/
def execIncAbs (addr : Word) (s : State) : Host.Outcome State Fault Refusal :=
  .next (modifyMem (.abs addr) incByte countFlags s)

/-- `INC` zero page,X, opcode 0xF6 (R205). -/
def execIncZpx (lo : Byte) (s : State) : Host.Outcome State Fault Refusal :=
  .next (modifyMem (.zpx lo) incByte countFlags s)

/-- `INC` absolute,X, opcode 0xFE (R205). -/
def execIncAbx (addr : Word) (s : State) : Host.Outcome State Fault Refusal :=
  .next (modifyMem (.abx addr) incByte countFlags s)

/-- `DEC` accumulator, opcode 0x3A (R206). -/
def execDecAcc (s : State) : Host.Outcome State Fault Refusal :=
  .next (modifyA decByte countFlags s)

/-- `DEC` zero page, opcode 0xC6 (R206). -/
def execDecZp (lo : Byte) (s : State) : Host.Outcome State Fault Refusal :=
  .next (modifyMem (.zp lo) decByte countFlags s)

/-- `DEC` absolute, opcode 0xCE (R206). -/
def execDecAbs (addr : Word) (s : State) : Host.Outcome State Fault Refusal :=
  .next (modifyMem (.abs addr) decByte countFlags s)

/-- `DEC` zero page,X, opcode 0xD6 (R206). -/
def execDecZpx (lo : Byte) (s : State) : Host.Outcome State Fault Refusal :=
  .next (modifyMem (.zpx lo) decByte countFlags s)

/-- `DEC` absolute,X, opcode 0xDE (R206). -/
def execDecAbx (addr : Word) (s : State) : Host.Outcome State Fault Refusal :=
  .next (modifyMem (.abx addr) decByte countFlags s)

/-- `INX`, opcode 0xE8 (R207). -/
def execInx (s : State) : Host.Outcome State Fault Refusal :=
  .next ({ s with x := incByte s.x }.setNZ (incByte s.x))

/-- `INY`, opcode 0xC8 (R208). -/
def execIny (s : State) : Host.Outcome State Fault Refusal :=
  .next ({ s with y := incByte s.y }.setNZ (incByte s.y))

/-- `DEX`, opcode 0xCA (R209). -/
def execDex (s : State) : Host.Outcome State Fault Refusal :=
  .next ({ s with x := decByte s.x }.setNZ (decByte s.x))

/-- `DEY`, opcode 0x88 (R210). -/
def execDey (s : State) : Host.Outcome State Fault Refusal :=
  .next ({ s with y := decByte s.y }.setNZ (decByte s.y))

end Sys2Proof.Machine
end

