-- ==== Sys2Proof/Machine/System.lean ====
section
/-! DEFINITION. Stack, flag, no-op, reserved and system instructions (45_stack_flags_system.md). Each rule's body is written once, over the operand; each opcode's meaning is one line over it. A meaning runs with `PC` already at the
next instruction (R101). -/

namespace Sys2Proof.Machine

/-- PLA: `A <- pull(); setNZ(A)` (R284). -/
def pullA (s : State) : State :=
  let r := pull s
  { r.2 with a := r.1 }.setNZ r.1

/-- PLX (R285). -/
def pullX (s : State) : State :=
  let r := pull s
  { r.2 with x := r.1 }.setNZ r.1

/-- PLY (R286). -/
def pullY (s : State) : State :=
  let r := pull s
  { r.2 with y := r.1 }.setNZ r.1

/-- PLP: `P <- pull() | 0x20` (R287). -/
def pullP (s : State) : State :=
  let r := pull s
  r.2.loadP r.1

/-- The body of NOP and of every reserved opcode: nothing (R296, R297). -/
def noOperation (s : State) : State := s

/-- `PHA`, opcode 0x48 (R280). -/
def execPha (s : State) : Host.Outcome State Fault Refusal :=
  .next (push s.a s)

/-- `PHX`, opcode 0xDA (R281). -/
def execPhx (s : State) : Host.Outcome State Fault Refusal :=
  .next (push s.x s)

/-- `PHY`, opcode 0x5A (R282). -/
def execPhy (s : State) : Host.Outcome State Fault Refusal :=
  .next (push s.y s)

/-- `PHP`, opcode 0x08 (R283). -/
def execPhp (s : State) : Host.Outcome State Fault Refusal :=
  .next (push s.pushedP s)

/-- `PLA`, opcode 0x68 (R284). -/
def execPla (s : State) : Host.Outcome State Fault Refusal :=
  .next (pullA s)

/-- `PLX`, opcode 0xFA (R285). -/
def execPlx (s : State) : Host.Outcome State Fault Refusal :=
  .next (pullX s)

/-- `PLY`, opcode 0x7A (R286). -/
def execPly (s : State) : Host.Outcome State Fault Refusal :=
  .next (pullY s)

/-- `PLP`, opcode 0x28 (R287). -/
def execPlp (s : State) : Host.Outcome State Fault Refusal :=
  .next (pullP s)

/-- `CLC`, opcode 0x18 (R288). -/
def execClc (s : State) : Host.Outcome State Fault Refusal :=
  .next (s.setC false)

/-- `SEC`, opcode 0x38 (R289). -/
def execSec (s : State) : Host.Outcome State Fault Refusal :=
  .next (s.setC true)

/-- `CLI`, opcode 0x58 (R290). -/
def execCli (s : State) : Host.Outcome State Fault Refusal :=
  .next (s.setI false)

/-- `SEI`, opcode 0x78 (R291). -/
def execSei (s : State) : Host.Outcome State Fault Refusal :=
  .next (s.setI true)

/-- `CLD`, opcode 0xD8 (R292). -/
def execCld (s : State) : Host.Outcome State Fault Refusal :=
  .next (s.setD false)

/-- `SED`, opcode 0xF8 (R293). -/
def execSed (s : State) : Host.Outcome State Fault Refusal :=
  .next (s.setD true)

/-- `CLV`, opcode 0xB8 (R294). -/
def execClv (s : State) : Host.Outcome State Fault Refusal :=
  .next (s.setV false)

/-- `NOP`, opcode 0xEA (R296). -/
def execNop (s : State) : Host.Outcome State Fault Refusal :=
  .next (noOperation s)

/-- `BRK`, opcode 0x00 (R300): the return address is `PC0 + 2`, one past the `PC` the body runs with. -/
def execBrk (s : State) : Host.Outcome State Fault Refusal :=
  .next (takeTrap (s.pc + 1) s)

/-- `RTI`, opcode 0x40 (R301). -/
def execRti (s : State) : Host.Outcome State Fault Refusal :=
  .next (returnFromTrap s)

/-- `WAI`, opcode 0xCB (R303). -/
def execWai (s : State) : Host.Outcome State Fault Refusal :=
  .next { s with st := .waiting }

/-- `STP`, opcode 0xDB (R304). -/
def execStp (s : State) : Host.Outcome State Fault Refusal :=
  .next { s with st := .stopped }

/-- Reserved opcode 0x02 (R297). -/
def execRes02 (_ : Byte) (s : State) : Host.Outcome State Fault Refusal :=
  .next (noOperation s)

/-- Reserved opcode 0x22 (R297). -/
def execRes22 (_ : Byte) (s : State) : Host.Outcome State Fault Refusal :=
  .next (noOperation s)

/-- Reserved opcode 0x42 (R297). -/
def execRes42 (_ : Byte) (s : State) : Host.Outcome State Fault Refusal :=
  .next (noOperation s)

/-- Reserved opcode 0x44 (R297). -/
def execRes44 (_ : Byte) (s : State) : Host.Outcome State Fault Refusal :=
  .next (noOperation s)

/-- Reserved opcode 0x54 (R297). -/
def execRes54 (_ : Byte) (s : State) : Host.Outcome State Fault Refusal :=
  .next (noOperation s)

/-- Reserved opcode 0x5C (R297). -/
def execRes5C (_ : Byte) (_ : Byte) (s : State) : Host.Outcome State Fault Refusal :=
  .next (noOperation s)

/-- Reserved opcode 0x62 (R297). -/
def execRes62 (_ : Byte) (s : State) : Host.Outcome State Fault Refusal :=
  .next (noOperation s)

/-- Reserved opcode 0x82 (R297). -/
def execRes82 (_ : Byte) (s : State) : Host.Outcome State Fault Refusal :=
  .next (noOperation s)

/-- Reserved opcode 0xC2 (R297). -/
def execResC2 (_ : Byte) (s : State) : Host.Outcome State Fault Refusal :=
  .next (noOperation s)

/-- Reserved opcode 0xD4 (R297). -/
def execResD4 (_ : Byte) (s : State) : Host.Outcome State Fault Refusal :=
  .next (noOperation s)

/-- Reserved opcode 0xDC (R297). -/
def execResDC (_ : Byte) (_ : Byte) (s : State) : Host.Outcome State Fault Refusal :=
  .next (noOperation s)

/-- Reserved opcode 0xE2 (R297). -/
def execResE2 (_ : Byte) (s : State) : Host.Outcome State Fault Refusal :=
  .next (noOperation s)

/-- Reserved opcode 0xF4 (R297). -/
def execResF4 (_ : Byte) (s : State) : Host.Outcome State Fault Refusal :=
  .next (noOperation s)

/-- Reserved opcode 0xFC (R297). -/
def execResFC (_ : Byte) (_ : Byte) (s : State) : Host.Outcome State Fault Refusal :=
  .next (noOperation s)

/-- Reserved opcode 0x03 (R297). -/
def execRes03 (s : State) : Host.Outcome State Fault Refusal :=
  .next (noOperation s)

/-- Reserved opcode 0x0B (R297). -/
def execRes0B (s : State) : Host.Outcome State Fault Refusal :=
  .next (noOperation s)

/-- Reserved opcode 0x13 (R297). -/
def execRes13 (s : State) : Host.Outcome State Fault Refusal :=
  .next (noOperation s)

/-- Reserved opcode 0x1B (R297). -/
def execRes1B (s : State) : Host.Outcome State Fault Refusal :=
  .next (noOperation s)

/-- Reserved opcode 0x23 (R297). -/
def execRes23 (s : State) : Host.Outcome State Fault Refusal :=
  .next (noOperation s)

/-- Reserved opcode 0x2B (R297). -/
def execRes2B (s : State) : Host.Outcome State Fault Refusal :=
  .next (noOperation s)

/-- Reserved opcode 0x33 (R297). -/
def execRes33 (s : State) : Host.Outcome State Fault Refusal :=
  .next (noOperation s)

/-- Reserved opcode 0x3B (R297). -/
def execRes3B (s : State) : Host.Outcome State Fault Refusal :=
  .next (noOperation s)

/-- Reserved opcode 0x43 (R297). -/
def execRes43 (s : State) : Host.Outcome State Fault Refusal :=
  .next (noOperation s)

/-- Reserved opcode 0x4B (R297). -/
def execRes4B (s : State) : Host.Outcome State Fault Refusal :=
  .next (noOperation s)

/-- Reserved opcode 0x53 (R297). -/
def execRes53 (s : State) : Host.Outcome State Fault Refusal :=
  .next (noOperation s)

/-- Reserved opcode 0x5B (R297). -/
def execRes5B (s : State) : Host.Outcome State Fault Refusal :=
  .next (noOperation s)

/-- Reserved opcode 0x63 (R297). -/
def execRes63 (s : State) : Host.Outcome State Fault Refusal :=
  .next (noOperation s)

/-- Reserved opcode 0x6B (R297). -/
def execRes6B (s : State) : Host.Outcome State Fault Refusal :=
  .next (noOperation s)

/-- Reserved opcode 0x73 (R297). -/
def execRes73 (s : State) : Host.Outcome State Fault Refusal :=
  .next (noOperation s)

/-- Reserved opcode 0x7B (R297). -/
def execRes7B (s : State) : Host.Outcome State Fault Refusal :=
  .next (noOperation s)

/-- Reserved opcode 0x83 (R297). -/
def execRes83 (s : State) : Host.Outcome State Fault Refusal :=
  .next (noOperation s)

/-- Reserved opcode 0x8B (R297). -/
def execRes8B (s : State) : Host.Outcome State Fault Refusal :=
  .next (noOperation s)

/-- Reserved opcode 0x93 (R297). -/
def execRes93 (s : State) : Host.Outcome State Fault Refusal :=
  .next (noOperation s)

/-- Reserved opcode 0x9B (R297). -/
def execRes9B (s : State) : Host.Outcome State Fault Refusal :=
  .next (noOperation s)

/-- Reserved opcode 0xA3 (R297). -/
def execResA3 (s : State) : Host.Outcome State Fault Refusal :=
  .next (noOperation s)

/-- Reserved opcode 0xAB (R297). -/
def execResAB (s : State) : Host.Outcome State Fault Refusal :=
  .next (noOperation s)

/-- Reserved opcode 0xB3 (R297). -/
def execResB3 (s : State) : Host.Outcome State Fault Refusal :=
  .next (noOperation s)

/-- Reserved opcode 0xBB (R297). -/
def execResBB (s : State) : Host.Outcome State Fault Refusal :=
  .next (noOperation s)

/-- Reserved opcode 0xC3 (R297). -/
def execResC3 (s : State) : Host.Outcome State Fault Refusal :=
  .next (noOperation s)

/-- Reserved opcode 0xD3 (R297). -/
def execResD3 (s : State) : Host.Outcome State Fault Refusal :=
  .next (noOperation s)

/-- Reserved opcode 0xE3 (R297). -/
def execResE3 (s : State) : Host.Outcome State Fault Refusal :=
  .next (noOperation s)

/-- Reserved opcode 0xEB (R297). -/
def execResEB (s : State) : Host.Outcome State Fault Refusal :=
  .next (noOperation s)

/-- Reserved opcode 0xF3 (R297). -/
def execResF3 (s : State) : Host.Outcome State Fault Refusal :=
  .next (noOperation s)

/-- Reserved opcode 0xFB (R297). -/
def execResFB (s : State) : Host.Outcome State Fault Refusal :=
  .next (noOperation s)

end Sys2Proof.Machine
end

