-- ==== Sys2Proof/Machine/Dispatch.lean ====
section
/-! DEFINITION. One arm per instruction: the body of rule R101's "run the body of the instruction that rule R112 assigns
to op", run with `PC` at the next instruction (log 16). -/

namespace Sys2Proof.Machine

def exec (i : Instr) (s : State) : Host.Outcome State Fault Refusal :=
  match i with
  | .ldaIzx lo => Sys2Proof.Machine.execLdaIzx lo s
  | .ldaZp lo => Sys2Proof.Machine.execLdaZp lo s
  | .ldaImm v => Sys2Proof.Machine.execLdaImm v s
  | .ldaAbs addr => Sys2Proof.Machine.execLdaAbs addr s
  | .ldaIzy lo => Sys2Proof.Machine.execLdaIzy lo s
  | .ldaIzp lo => Sys2Proof.Machine.execLdaIzp lo s
  | .ldaZpx lo => Sys2Proof.Machine.execLdaZpx lo s
  | .ldaAby addr => Sys2Proof.Machine.execLdaAby addr s
  | .ldaAbx addr => Sys2Proof.Machine.execLdaAbx addr s
  | .ldxImm v => Sys2Proof.Machine.execLdxImm v s
  | .ldxZp lo => Sys2Proof.Machine.execLdxZp lo s
  | .ldxAbs addr => Sys2Proof.Machine.execLdxAbs addr s
  | .ldxZpy lo => Sys2Proof.Machine.execLdxZpy lo s
  | .ldxAby addr => Sys2Proof.Machine.execLdxAby addr s
  | .ldyImm v => Sys2Proof.Machine.execLdyImm v s
  | .ldyZp lo => Sys2Proof.Machine.execLdyZp lo s
  | .ldyAbs addr => Sys2Proof.Machine.execLdyAbs addr s
  | .ldyZpx lo => Sys2Proof.Machine.execLdyZpx lo s
  | .ldyAbx addr => Sys2Proof.Machine.execLdyAbx addr s
  | .staIzx lo => Sys2Proof.Machine.execStaIzx lo s
  | .staZp lo => Sys2Proof.Machine.execStaZp lo s
  | .staAbs addr => Sys2Proof.Machine.execStaAbs addr s
  | .staIzy lo => Sys2Proof.Machine.execStaIzy lo s
  | .staIzp lo => Sys2Proof.Machine.execStaIzp lo s
  | .staZpx lo => Sys2Proof.Machine.execStaZpx lo s
  | .staAby addr => Sys2Proof.Machine.execStaAby addr s
  | .staAbx addr => Sys2Proof.Machine.execStaAbx addr s
  | .stxZp lo => Sys2Proof.Machine.execStxZp lo s
  | .stxAbs addr => Sys2Proof.Machine.execStxAbs addr s
  | .stxZpy lo => Sys2Proof.Machine.execStxZpy lo s
  | .styZp lo => Sys2Proof.Machine.execStyZp lo s
  | .styAbs addr => Sys2Proof.Machine.execStyAbs addr s
  | .styZpx lo => Sys2Proof.Machine.execStyZpx lo s
  | .stzZp lo => Sys2Proof.Machine.execStzZp lo s
  | .stzZpx lo => Sys2Proof.Machine.execStzZpx lo s
  | .stzAbs addr => Sys2Proof.Machine.execStzAbs addr s
  | .stzAbx addr => Sys2Proof.Machine.execStzAbx addr s
  | .tax => Sys2Proof.Machine.execTax s
  | .tay => Sys2Proof.Machine.execTay s
  | .txa => Sys2Proof.Machine.execTxa s
  | .tya => Sys2Proof.Machine.execTya s
  | .tsx => Sys2Proof.Machine.execTsx s
  | .txs => Sys2Proof.Machine.execTxs s
  | .adcIzx lo => Sys2Proof.Machine.execAdcIzx lo s
  | .adcZp lo => Sys2Proof.Machine.execAdcZp lo s
  | .adcImm v => Sys2Proof.Machine.execAdcImm v s
  | .adcAbs addr => Sys2Proof.Machine.execAdcAbs addr s
  | .adcIzy lo => Sys2Proof.Machine.execAdcIzy lo s
  | .adcIzp lo => Sys2Proof.Machine.execAdcIzp lo s
  | .adcZpx lo => Sys2Proof.Machine.execAdcZpx lo s
  | .adcAby addr => Sys2Proof.Machine.execAdcAby addr s
  | .adcAbx addr => Sys2Proof.Machine.execAdcAbx addr s
  | .sbcIzx lo => Sys2Proof.Machine.execSbcIzx lo s
  | .sbcZp lo => Sys2Proof.Machine.execSbcZp lo s
  | .sbcImm v => Sys2Proof.Machine.execSbcImm v s
  | .sbcAbs addr => Sys2Proof.Machine.execSbcAbs addr s
  | .sbcIzy lo => Sys2Proof.Machine.execSbcIzy lo s
  | .sbcIzp lo => Sys2Proof.Machine.execSbcIzp lo s
  | .sbcZpx lo => Sys2Proof.Machine.execSbcZpx lo s
  | .sbcAby addr => Sys2Proof.Machine.execSbcAby addr s
  | .sbcAbx addr => Sys2Proof.Machine.execSbcAbx addr s
  | .andIzx lo => Sys2Proof.Machine.execAndIzx lo s
  | .andZp lo => Sys2Proof.Machine.execAndZp lo s
  | .andImm v => Sys2Proof.Machine.execAndImm v s
  | .andAbs addr => Sys2Proof.Machine.execAndAbs addr s
  | .andIzy lo => Sys2Proof.Machine.execAndIzy lo s
  | .andIzp lo => Sys2Proof.Machine.execAndIzp lo s
  | .andZpx lo => Sys2Proof.Machine.execAndZpx lo s
  | .andAby addr => Sys2Proof.Machine.execAndAby addr s
  | .andAbx addr => Sys2Proof.Machine.execAndAbx addr s
  | .oraIzx lo => Sys2Proof.Machine.execOraIzx lo s
  | .oraZp lo => Sys2Proof.Machine.execOraZp lo s
  | .oraImm v => Sys2Proof.Machine.execOraImm v s
  | .oraAbs addr => Sys2Proof.Machine.execOraAbs addr s
  | .oraIzy lo => Sys2Proof.Machine.execOraIzy lo s
  | .oraIzp lo => Sys2Proof.Machine.execOraIzp lo s
  | .oraZpx lo => Sys2Proof.Machine.execOraZpx lo s
  | .oraAby addr => Sys2Proof.Machine.execOraAby addr s
  | .oraAbx addr => Sys2Proof.Machine.execOraAbx addr s
  | .eorIzx lo => Sys2Proof.Machine.execEorIzx lo s
  | .eorZp lo => Sys2Proof.Machine.execEorZp lo s
  | .eorImm v => Sys2Proof.Machine.execEorImm v s
  | .eorAbs addr => Sys2Proof.Machine.execEorAbs addr s
  | .eorIzy lo => Sys2Proof.Machine.execEorIzy lo s
  | .eorIzp lo => Sys2Proof.Machine.execEorIzp lo s
  | .eorZpx lo => Sys2Proof.Machine.execEorZpx lo s
  | .eorAby addr => Sys2Proof.Machine.execEorAby addr s
  | .eorAbx addr => Sys2Proof.Machine.execEorAbx addr s
  | .cmpIzx lo => Sys2Proof.Machine.execCmpIzx lo s
  | .cmpZp lo => Sys2Proof.Machine.execCmpZp lo s
  | .cmpImm v => Sys2Proof.Machine.execCmpImm v s
  | .cmpAbs addr => Sys2Proof.Machine.execCmpAbs addr s
  | .cmpIzy lo => Sys2Proof.Machine.execCmpIzy lo s
  | .cmpIzp lo => Sys2Proof.Machine.execCmpIzp lo s
  | .cmpZpx lo => Sys2Proof.Machine.execCmpZpx lo s
  | .cmpAby addr => Sys2Proof.Machine.execCmpAby addr s
  | .cmpAbx addr => Sys2Proof.Machine.execCmpAbx addr s
  | .cpxImm v => Sys2Proof.Machine.execCpxImm v s
  | .cpxZp lo => Sys2Proof.Machine.execCpxZp lo s
  | .cpxAbs addr => Sys2Proof.Machine.execCpxAbs addr s
  | .cpyImm v => Sys2Proof.Machine.execCpyImm v s
  | .cpyZp lo => Sys2Proof.Machine.execCpyZp lo s
  | .cpyAbs addr => Sys2Proof.Machine.execCpyAbs addr s
  | .bitZp lo => Sys2Proof.Machine.execBitZp lo s
  | .bitAbs addr => Sys2Proof.Machine.execBitAbs addr s
  | .bitZpx lo => Sys2Proof.Machine.execBitZpx lo s
  | .bitAbx addr => Sys2Proof.Machine.execBitAbx addr s
  | .bitImm v => Sys2Proof.Machine.execBitImm v s
  | .tsbZp lo => Sys2Proof.Machine.execTsbZp lo s
  | .tsbAbs addr => Sys2Proof.Machine.execTsbAbs addr s
  | .trbZp lo => Sys2Proof.Machine.execTrbZp lo s
  | .trbAbs addr => Sys2Proof.Machine.execTrbAbs addr s
  | .aslZp lo => Sys2Proof.Machine.execAslZp lo s
  | .aslAcc => Sys2Proof.Machine.execAslAcc s
  | .aslAbs addr => Sys2Proof.Machine.execAslAbs addr s
  | .aslZpx lo => Sys2Proof.Machine.execAslZpx lo s
  | .aslAbx addr => Sys2Proof.Machine.execAslAbx addr s
  | .lsrZp lo => Sys2Proof.Machine.execLsrZp lo s
  | .lsrAcc => Sys2Proof.Machine.execLsrAcc s
  | .lsrAbs addr => Sys2Proof.Machine.execLsrAbs addr s
  | .lsrZpx lo => Sys2Proof.Machine.execLsrZpx lo s
  | .lsrAbx addr => Sys2Proof.Machine.execLsrAbx addr s
  | .rolZp lo => Sys2Proof.Machine.execRolZp lo s
  | .rolAcc => Sys2Proof.Machine.execRolAcc s
  | .rolAbs addr => Sys2Proof.Machine.execRolAbs addr s
  | .rolZpx lo => Sys2Proof.Machine.execRolZpx lo s
  | .rolAbx addr => Sys2Proof.Machine.execRolAbx addr s
  | .rorZp lo => Sys2Proof.Machine.execRorZp lo s
  | .rorAcc => Sys2Proof.Machine.execRorAcc s
  | .rorAbs addr => Sys2Proof.Machine.execRorAbs addr s
  | .rorZpx lo => Sys2Proof.Machine.execRorZpx lo s
  | .rorAbx addr => Sys2Proof.Machine.execRorAbx addr s
  | .incAcc => Sys2Proof.Machine.execIncAcc s
  | .incZp lo => Sys2Proof.Machine.execIncZp lo s
  | .incAbs addr => Sys2Proof.Machine.execIncAbs addr s
  | .incZpx lo => Sys2Proof.Machine.execIncZpx lo s
  | .incAbx addr => Sys2Proof.Machine.execIncAbx addr s
  | .decAcc => Sys2Proof.Machine.execDecAcc s
  | .decZp lo => Sys2Proof.Machine.execDecZp lo s
  | .decAbs addr => Sys2Proof.Machine.execDecAbs addr s
  | .decZpx lo => Sys2Proof.Machine.execDecZpx lo s
  | .decAbx addr => Sys2Proof.Machine.execDecAbx addr s
  | .inx => Sys2Proof.Machine.execInx s
  | .iny => Sys2Proof.Machine.execIny s
  | .dex => Sys2Proof.Machine.execDex s
  | .dey => Sys2Proof.Machine.execDey s
  | .rmb0 lo => Sys2Proof.Machine.execRmb0 lo s
  | .rmb1 lo => Sys2Proof.Machine.execRmb1 lo s
  | .rmb2 lo => Sys2Proof.Machine.execRmb2 lo s
  | .rmb3 lo => Sys2Proof.Machine.execRmb3 lo s
  | .rmb4 lo => Sys2Proof.Machine.execRmb4 lo s
  | .rmb5 lo => Sys2Proof.Machine.execRmb5 lo s
  | .rmb6 lo => Sys2Proof.Machine.execRmb6 lo s
  | .rmb7 lo => Sys2Proof.Machine.execRmb7 lo s
  | .smb0 lo => Sys2Proof.Machine.execSmb0 lo s
  | .smb1 lo => Sys2Proof.Machine.execSmb1 lo s
  | .smb2 lo => Sys2Proof.Machine.execSmb2 lo s
  | .smb3 lo => Sys2Proof.Machine.execSmb3 lo s
  | .smb4 lo => Sys2Proof.Machine.execSmb4 lo s
  | .smb5 lo => Sys2Proof.Machine.execSmb5 lo s
  | .smb6 lo => Sys2Proof.Machine.execSmb6 lo s
  | .smb7 lo => Sys2Proof.Machine.execSmb7 lo s
  | .bbr0 lo off => Sys2Proof.Machine.execBbr0 lo off s
  | .bbr1 lo off => Sys2Proof.Machine.execBbr1 lo off s
  | .bbr2 lo off => Sys2Proof.Machine.execBbr2 lo off s
  | .bbr3 lo off => Sys2Proof.Machine.execBbr3 lo off s
  | .bbr4 lo off => Sys2Proof.Machine.execBbr4 lo off s
  | .bbr5 lo off => Sys2Proof.Machine.execBbr5 lo off s
  | .bbr6 lo off => Sys2Proof.Machine.execBbr6 lo off s
  | .bbr7 lo off => Sys2Proof.Machine.execBbr7 lo off s
  | .bbs0 lo off => Sys2Proof.Machine.execBbs0 lo off s
  | .bbs1 lo off => Sys2Proof.Machine.execBbs1 lo off s
  | .bbs2 lo off => Sys2Proof.Machine.execBbs2 lo off s
  | .bbs3 lo off => Sys2Proof.Machine.execBbs3 lo off s
  | .bbs4 lo off => Sys2Proof.Machine.execBbs4 lo off s
  | .bbs5 lo off => Sys2Proof.Machine.execBbs5 lo off s
  | .bbs6 lo off => Sys2Proof.Machine.execBbs6 lo off s
  | .bbs7 lo off => Sys2Proof.Machine.execBbs7 lo off s
  | .bcc off => Sys2Proof.Machine.execBcc off s
  | .bcs off => Sys2Proof.Machine.execBcs off s
  | .beq off => Sys2Proof.Machine.execBeq off s
  | .bne off => Sys2Proof.Machine.execBne off s
  | .bmi off => Sys2Proof.Machine.execBmi off s
  | .bpl off => Sys2Proof.Machine.execBpl off s
  | .bvc off => Sys2Proof.Machine.execBvc off s
  | .bvs off => Sys2Proof.Machine.execBvs off s
  | .bra off => Sys2Proof.Machine.execBra off s
  | .jmpAbs addr => Sys2Proof.Machine.execJmpAbs addr s
  | .jmpInd addr => Sys2Proof.Machine.execJmpInd addr s
  | .jmpIax addr => Sys2Proof.Machine.execJmpIax addr s
  | .jsr addr => Sys2Proof.Machine.execJsr addr s
  | .rts => Sys2Proof.Machine.execRts s
  | .pha => Sys2Proof.Machine.execPha s
  | .phx => Sys2Proof.Machine.execPhx s
  | .phy => Sys2Proof.Machine.execPhy s
  | .php => Sys2Proof.Machine.execPhp s
  | .pla => Sys2Proof.Machine.execPla s
  | .plx => Sys2Proof.Machine.execPlx s
  | .ply => Sys2Proof.Machine.execPly s
  | .plp => Sys2Proof.Machine.execPlp s
  | .clc => Sys2Proof.Machine.execClc s
  | .sec => Sys2Proof.Machine.execSec s
  | .cli => Sys2Proof.Machine.execCli s
  | .sei => Sys2Proof.Machine.execSei s
  | .cld => Sys2Proof.Machine.execCld s
  | .sed => Sys2Proof.Machine.execSed s
  | .clv => Sys2Proof.Machine.execClv s
  | .nop => Sys2Proof.Machine.execNop s
  | .brk => Sys2Proof.Machine.execBrk s
  | .rti => Sys2Proof.Machine.execRti s
  | .wai => Sys2Proof.Machine.execWai s
  | .stp => Sys2Proof.Machine.execStp s
  | .res02 lo => Sys2Proof.Machine.execRes02 lo s
  | .res22 lo => Sys2Proof.Machine.execRes22 lo s
  | .res42 lo => Sys2Proof.Machine.execRes42 lo s
  | .res44 lo => Sys2Proof.Machine.execRes44 lo s
  | .res54 lo => Sys2Proof.Machine.execRes54 lo s
  | .res5C lo hi => Sys2Proof.Machine.execRes5C lo hi s
  | .res62 lo => Sys2Proof.Machine.execRes62 lo s
  | .res82 lo => Sys2Proof.Machine.execRes82 lo s
  | .resC2 lo => Sys2Proof.Machine.execResC2 lo s
  | .resD4 lo => Sys2Proof.Machine.execResD4 lo s
  | .resDC lo hi => Sys2Proof.Machine.execResDC lo hi s
  | .resE2 lo => Sys2Proof.Machine.execResE2 lo s
  | .resF4 lo => Sys2Proof.Machine.execResF4 lo s
  | .resFC lo hi => Sys2Proof.Machine.execResFC lo hi s
  | .res03 => Sys2Proof.Machine.execRes03 s
  | .res0B => Sys2Proof.Machine.execRes0B s
  | .res13 => Sys2Proof.Machine.execRes13 s
  | .res1B => Sys2Proof.Machine.execRes1B s
  | .res23 => Sys2Proof.Machine.execRes23 s
  | .res2B => Sys2Proof.Machine.execRes2B s
  | .res33 => Sys2Proof.Machine.execRes33 s
  | .res3B => Sys2Proof.Machine.execRes3B s
  | .res43 => Sys2Proof.Machine.execRes43 s
  | .res4B => Sys2Proof.Machine.execRes4B s
  | .res53 => Sys2Proof.Machine.execRes53 s
  | .res5B => Sys2Proof.Machine.execRes5B s
  | .res63 => Sys2Proof.Machine.execRes63 s
  | .res6B => Sys2Proof.Machine.execRes6B s
  | .res73 => Sys2Proof.Machine.execRes73 s
  | .res7B => Sys2Proof.Machine.execRes7B s
  | .res83 => Sys2Proof.Machine.execRes83 s
  | .res8B => Sys2Proof.Machine.execRes8B s
  | .res93 => Sys2Proof.Machine.execRes93 s
  | .res9B => Sys2Proof.Machine.execRes9B s
  | .resA3 => Sys2Proof.Machine.execResA3 s
  | .resAB => Sys2Proof.Machine.execResAB s
  | .resB3 => Sys2Proof.Machine.execResB3 s
  | .resBB => Sys2Proof.Machine.execResBB s
  | .resC3 => Sys2Proof.Machine.execResC3 s
  | .resD3 => Sys2Proof.Machine.execResD3 s
  | .resE3 => Sys2Proof.Machine.execResE3 s
  | .resEB => Sys2Proof.Machine.execResEB s
  | .resF3 => Sys2Proof.Machine.execResF3 s
  | .resFB => Sys2Proof.Machine.execResFB s

end Sys2Proof.Machine
end

