-- ==== Sys2Proof/Machine/Fetch.lean ====
section
/-! DEFINITION. Fetching (R101, R80): the opcode, then the operand bytes its size calls for, each by its own bus read;
the report of a step (R103); and where an instruction can be placed so that the next step fetches it. -/

namespace Sys2Proof.Machine

/-- What the fetch part of a step leaves: the bytes read, the instruction they are, and the state with `PC` at the next
instruction (`PCn`). -/
structure Fetched where
  op : Byte
  lo : Option Byte
  hi : Option Byte
  instr : Instr
  state : State

/-- Fetch (R101): the reads in ascending address order, each address modulo 65536, then the advance of `PC`. -/
def fetch (s : State) : Fetched :=
  let pc0 := s.pc
  let o := memRead pc0 s
  match opcodeCell o.1 with
  | .f1 i => { op := o.1, lo := none, hi := none, instr := i, state := { o.2 with pc := pc0 + 1 } }
  | .f2 mk =>
    let l := memRead (pc0 + 1) o.2
    { op := o.1, lo := some l.1, hi := none, instr := mk l.1, state := { l.2 with pc := pc0 + 2 } }
  | .f3 mk =>
    let l := memRead (pc0 + 1) o.2
    let h := memRead (pc0 + 2) l.2
    { op := o.1, lo := some l.1, hi := some h.1, instr := mk l.1 h.1, state := { h.2 with pc := pc0 + 3 } }

/-- The report of a step (R103), an output that no rule reads (log 11). -/
inductive Report where
  | executed (op : Byte) (lo hi : Option Byte)
  | bootJump (target : Word)
  | waiting
  | stopped
  deriving DecidableEq, Repr

/-- The address is a cell of `RAM` or of `ROM`. -/
def isBacked (addr : Word) : Bool := decide (isRam addr.toNat ∨ isRom addr.toNat)

/-- The longest instruction fits at the address: its three bytes are cells of `RAM` or `ROM`. -/
def canHoldInstr (addr : Word) : Bool := isBacked addr && isBacked (addr + 1) && isBacked (addr + 2)

/-- Where the next fetch can find a placed instruction: at `PC`, or at 0x0200 when the bytes at `PC` are not memory. -/
def placementPC (pc : Word) : Word := if canHoldInstr pc then pc else 0x0200

/-- Bytes stored in memory at ascending addresses modulo 65536, in `RAM` and in `ROM` alike. -/
def placeBytes : List Byte → Word → Memory → Memory
  | [], _, m => m
  | b :: bs, addr, m => placeBytes bs (addr + 1) (Memory.write m addr.toNat b)

end Sys2Proof.Machine
end

