-- ==== Sys2Proof/Machine/Step.lean ====
section
/-! DEFINITION. One step (R32, R101): the boot step, one instruction, or nothing while waiting or stopped. -/

namespace Sys2Proof.Machine

/-- The single-step execution entry point (R13, R32). -/
def step (s : State) : Host.Outcome State Fault Refusal :=
  match s.st with
  | .booting => .next (boot s)
  | .running => exec (fetch s).instr (fetch s).state
  | .waiting => .next s
  | .stopped => .next s

/-- The report that the step from `s` returns (R103). -/
def stepReport (s : State) : Report :=
  match s.st with
  | .booting => .bootJump (boot s).pc
  | .running => .executed (fetch s).op (fetch s).lo (fetch s).hi
  | .waiting => .waiting
  | .stopped => .stopped

/-- `s` with the instruction of the numbered word stored where the next step fetches, and the CPU running (log 6). -/
def State.withFetchWord (s : State) (nbits w : Nat) : State :=
  { s with
    st := .running
    pc := placementPC s.pc
    mem := placeBytes (tableWordBytes nbits w) (placementPC s.pc) s.mem }

end Sys2Proof.Machine
end

