-- ==== Sys2Proof/Machine/HostOps.lean ====
section
/-! DEFINITION. What the host can do between steps (00_scope.md R14, 70_reset_and_hazards.md section 3): functions of
their own beside `step` (log 8). A call the spec refuses answers a refusal of its own name (log 9). -/

namespace Sys2Proof.Machine

/-- `resume()` (R425, R32): out of waiting and stopped; nothing in running; refused in booting (U6). -/
def resume (s : State) : Host.Outcome State Fault Refusal :=
  match s.st with
  | .booting => .refused .resumeWhileBooting
  | .running => .next s
  | .waiting => .next { s with st := .running }
  | .stopped => .next { s with st := .running }

/-- The subsystems a reset is asked for (R420). -/
structure Subsystems where
  cpu : Bool
  via : Bool
  uart : Bool
  lcd : Bool
  deriving DecidableEq, Repr

/-- The CPU's reset (R34, R420): booting, the registers at drawn values, bit 5 of `P` set (log 22). -/
def resetCpu (d : CpuDraws) (s : State) : State :=
  { s with a := d.a, x := d.x, y := d.y, sp := d.sp, p := d.p ||| 0x20, pc := d.pc, st := .booting }

/-- `reset(subsystems)` (R420): each member at its reset values; `RAM` and `ROM` are kept (R36). -/
def resetSubsystems (sel : Subsystems) (d : CpuDraws) (s : State) : State :=
  let s := if sel.cpu then resetCpu d s else s
  let s := if sel.via then { s with via := Via.reset } else s
  let s := if sel.uart then { s with uart := Uart.reset } else s
  if sel.lcd then { s with lcd := Lcd.reset } else s

/-- The bytes of `program`, each at its index modulo 0x2000 (R73). -/
def programFrom : List Byte → Nat → Memory → Memory
  | [], _, m => m
  | b :: bs, i, m => programFrom bs (i + 1) (Memory.write m (romAddr i) b)

/-- `program(data, atOffset)` (R73, R426): writes `ROM` and nothing else; refused when the data is longer than `ROM`
(U10). -/
def program (data : List Byte) (atOffset : Nat) (s : State) : Host.Outcome State Fault Refusal :=
  if data.length ≤ 0x2000 then .next { s with mem := programFrom data atOffset s.mem }
  else .refused .programTooLong

/-- `UART.receiveBit(source)` with the bit the source gives (R381, R427). -/
def receiveBit (b : Bool) (s : State) : State := { s with uart := s.uart.receiveBit b }

/-- `UART.transmitBit(sink)` (R382, R427): the bit sent and the state after; refused when `TXCNT = 0` (U9). -/
def transmitBit (s : State) : Host.Outcome (Bool × State) Fault Refusal :=
  if s.uart.txcnt = 0 then .refused .transmitCountZero
  else .next (s.uart.transmitBit.1, { s with uart := s.uart.transmitBit.2 })

/-- `load(addr, paIn, pbIn)` (R72, R428): a bus read with the caller's pin levels. -/
def load (addr : Word) (paIn pbIn : Byte) (s : State) : Byte × State := busRead paIn pbIn addr s

/-- `store(addr, v)` is `MemWrite` (R72; log 19). -/
def store (addr : Word) (v : Byte) (s : State) : State := memWrite addr v s

/-- A direct `VIA.read` (R429). -/
def viaRead (i : BitVec 4) (pinA pinB : Byte) (s : State) : Byte × State := (s.via.read i pinA pinB, s)

/-- A direct `VIA.write` (R429). -/
def viaWrite (i : BitVec 4) (v : Byte) (s : State) : State := { s with via := s.via.write i v }

/-- A direct `UART.read` (R429). -/
def uartRead (i : BitVec 2) (s : State) : Byte × State := ((s.uart.read i).1, { s with uart := (s.uart.read i).2 })

/-- A direct `UART.write` (R429). -/
def uartWrite (i : BitVec 2) (v : Byte) (s : State) : State := { s with uart := s.uart.write i v }

/-- A direct `LCD.execute` (R390, R429). -/
def lcdExecute (rs rw : Bool) (d : Byte) (s : State) : Option Byte × State :=
  ((s.lcd.execute rs rw d).1, { s with lcd := (s.lcd.execute rs rw d).2 })

/-- A run has ended when the program executed STP (R432). -/
def State.ended (s : State) : Bool := s.st == .stopped

/-- `execute(count)` (R430): `count` steps. -/
def executeCount : Nat → State → Host.Outcome State Fault Refusal
  | 0, s => .next s
  | n + 1, s =>
    match step s with
    | .next t => executeCount n t
    | .fault r => .fault r
    | .refused r => .refused r

/-- Step until `stop` holds of the state before the step just done and the state after it; the fuel bounds the number of
steps (U17; log 10). `none` when the fuel runs out first. -/
def executeUntil (stop : State → State → Bool) : Nat → State → Option (Host.Outcome State Fault Refusal)
  | 0, _ => none
  | n + 1, s =>
    match step s with
    | .next t => if stop s t then some (.next t) else executeUntil stop n t
    | .fault r => some (.fault r)
    | .refused r => some (.refused r)

/-- `execute(untilAddress a)` (R430): at least one step, then until `PC = a` after a step. -/
def executeUntilAddress (a : Word) : Nat → State → Option (Host.Outcome State Fault Refusal) :=
  executeUntil fun _ t => t.pc == a

/-- The step from `s` reported `Executed(b, …)`. -/
def reportsOpcode (b : Byte) (s : State) : Bool :=
  match stepReport s with
  | .executed op _ _ => op == b
  | _ => false

/-- `execute(untilOpcode b)` (R430): stops after a step that reported `Executed(b, …)`. -/
def executeUntilOpcode (b : Byte) : Nat → State → Option (Host.Outcome State Fault Refusal) :=
  executeUntil fun s _ => reportsOpcode b s

end Sys2Proof.Machine
end

