-- ==== Sys2Proof/Safety.lean ====
section
/-! DEFINITION. The terms the statements use: the invariant of the machine, and a vocabulary that says what the rules say
in the spec's own arithmetic (natural numbers, literal masks) instead of through the operations the meanings call. -/

namespace Sys2Proof.Machine

/-- What every state a run reaches has: memory in its canonical form, bit 5 of `P` set (R25), the UART's bit counts in
range (R43, R378, R381), the LCD never busy (R51). -/
abbrev Inv (s : State) : Prop :=
  Memory.wf s.mem ∧ s.p.getLsbD 5 = true ∧ s.uart.txcnt.toNat ≤ 8 ∧ s.uart.rxcnt.toNat ≤ 7 ∧ s.lcd.fBusy = false

/-- The address is in a device window (R64): the UART's or the VIA's. -/
abbrev inDeviceWindow (a : Word) : Prop := 0x4000 ≤ a.toNat ∧ a.toNat ≤ 0x7FFF

/-- What an address outside the device windows reads as (R62): a memory byte, or 0xEA in unmapped space. -/
def plainByte (s : State) (a : Word) : Byte :=
  if 0x8000 ≤ a.toNat ∧ a.toNat ≤ 0xDFFF then 0xEA else Memory.read s.mem a.toNat

/-- The memory bytes at the listed addresses become the listed values, and every other byte reads as before; the
canonical form is kept. -/
def MemChanged (m : Memory) (cells : List (Nat × Byte)) (m' : Memory) : Prop :=
  (Memory.wf m → Memory.wf m' ∧ ∀ c ∈ cells, Memory.read m' c.1 = c.2) ∧
  ∀ k, k ∉ cells.map Prod.fst → Memory.read m' k = Memory.read m k

/-- A bit of `P` written (`some b`) or kept (`none`). -/
def putBit (p mask : Byte) : Option Bool → Byte
  | none => p
  | some true => p ||| mask
  | some false => p &&& ~~~mask

/-- `P` with N, V, Z and C written where a value is given, and every other bit kept (R24). -/
def pWith (p : Byte) (n v z c : Option Bool) : Byte :=
  putBit (putBit (putBit (putBit p 0x80 n) 0x40 v) 0x02 z) 0x01 c

/-- `P` after `setNZ(r)` (R27). -/
def pNZ (p r : Byte) : Byte := pWith p (some (decide (128 ≤ r.toNat))) none (some (decide (r.toNat = 0))) none

/-- `P` after `setNZ(r)` and a write of C. -/
def pNZC (p r : Byte) (c : Bool) : Byte :=
  pWith p (some (decide (128 ≤ r.toNat))) none (some (decide (r.toNat = 0))) (some c)

/-- `P.C` as a number, 0 or 1. -/
def carryNat (s : State) : Nat := if s.p.getLsbD 0 then 1 else 0

/-- The little-endian word whose bytes lie in memory at `k` and `k'`. -/
def memWord (s : State) (k k' : Nat) : Word :=
  BitVec.ofNat 16 ((Memory.read s.mem k).toNat + 256 * (Memory.read s.mem k').toNat)

/-- The pointer at a zero-page address, its high byte at the next one modulo 256 (R107 to R109). -/
def pointerAt (s : State) (p : Nat) : Word := memWord s p ((p + 1) % 256)

/-- The effective address of a mode (R104, R105, R107 to R109). -/
def eaOf (m : AddrMode) (s : State) : Word :=
  match m with
  | .zp lo => BitVec.ofNat 16 lo.toNat
  | .zpx lo => BitVec.ofNat 16 ((lo.toNat + s.x.toNat) % 256)
  | .zpy lo => BitVec.ofNat 16 ((lo.toNat + s.y.toNat) % 256)
  | .abs addr => addr
  | .abx addr => BitVec.ofNat 16 ((addr.toNat + s.x.toNat) % 65536)
  | .aby addr => BitVec.ofNat 16 ((addr.toNat + s.y.toNat) % 65536)
  | .izx lo => pointerAt s ((lo.toNat + s.x.toNat) % 256)
  | .izy lo => BitVec.ofNat 16 (((pointerAt s lo.toNat).toNat + s.y.toNat) % 65536)
  | .izp lo => pointerAt s lo.toNat

/-- The byte a bus read of `a` gives in `s`. -/
def byteAt (a : Word) (s : State) : Byte := (memRead a s).1

/-- `s` after a bus read of `a`: a device read may change the UART or the LCD, and may take a pin draw; every CPU
register, the memory and the VIA are unchanged. -/
def afterRead (a : Word) (s : State) : State :=
  { s with
    uart := (memRead a s).2.uart
    lcd := (memRead a s).2.lcd
    pinDraws := (memRead a s).2.pinDraws }

/-- The value of an operand. -/
def operandByte (o : Operand) (s : State) : Byte :=
  match o with
  | .imm v => v
  | .mem m => byteAt (eaOf m s) s

/-- `s` after the operand is read. -/
def operandAfter (o : Operand) (s : State) : State :=
  match o with
  | .imm _ => s
  | .mem m => afterRead (eaOf m s) s

/-- `t` is `s` after the bus write of `v` at `a` (R63), device window by device window, and no other effect. -/
def WroteByte (a : Word) (v : Byte) (s t : State) : Prop :=
  t = { s with mem := t.mem, via := t.via, uart := t.uart, lcd := t.lcd, pinDraws := t.pinDraws } ∧
  (∀ k, k ≠ a.toNat → Memory.read t.mem k = Memory.read s.mem k) ∧
  (a.toNat ≤ 0x3FFF → t = { s with mem := t.mem } ∧ MemChanged s.mem [(a.toNat, v)] t.mem) ∧
  (0x4000 ≤ a.toNat → a.toNat ≤ 0x5FFF → t = { s with uart := s.uart.write (BitVec.ofNat 2 (a.toNat % 4)) v }) ∧
  (0x6000 ≤ a.toNat → a.toNat ≤ 0x7FFF →
    t = { viaLcdWrite (BitVec.ofNat 4 (a.toNat % 16)) v (Config.pinAIn s.pinDraws) (Config.pinBIn s.pinDraws) s with
      pinDraws := s.pinDraws + 1 }) ∧
  (0x8000 ≤ a.toNat → t = s)

/-- The bus address of the stack cell that `sp` designates (R22). -/
def stackCell (sp : Byte) : Nat := 0x0100 + sp.toNat

/-- `(PC + off) mod 65536` for a signed branch offset (R111, R250). -/
def branchTarget (pc : Word) (off : Byte) : Word := BitVec.ofInt 16 (pc.toNat + off.toInt)

/-- The instruction's encoding is the opcode `op` and as many operand bytes as `SIZE[op]` calls for. -/
def EncodedBy (i : Instr) (op : Byte) : Prop :=
  (encode i).head? = some op ∧ (encode i).length = Config.size op

end Sys2Proof.Machine
end

