-- ==== Sys2Proof/Certificates/Slice0/Obligations.lean ====
section
/-! DEFINITION. The statements about the machine, from the numbered rules of spec/. The tables of forms list, for each
instruction, its operand, its constructor and its opcode as the instruction's own rule gives them; `b`, `w` stand for an
operand byte and an operand word, at every value. A clause that rests on a decision (D) or a derivation that the spec
marks as its own, or on a log entry, is named where it stands. -/

namespace Sys2Proof.Machine

/-! ### Forms -/

/-- The nine operand forms of the accumulator instructions, each with its opcode. -/
def nineForms (imm zp zpx izx izy izp : Byte → Instr) (abs abx aby : Word → Instr)
    (oImm oZp oZpx oAbs oAbx oAby oIzx oIzy oIzp : Byte) (b : Byte) (w : Word) : List (Operand × Instr × Byte) :=
  [(.imm b, imm b, oImm), (.mem (.zp b), zp b, oZp), (.mem (.zpx b), zpx b, oZpx), (.mem (.abs w), abs w, oAbs),
   (.mem (.abx w), abx w, oAbx), (.mem (.aby w), aby w, oAby), (.mem (.izx b), izx b, oIzx),
   (.mem (.izy b), izy b, oIzy), (.mem (.izp b), izp b, oIzp)]

/-- LDA (R141). -/
def ldaForms : Byte → Word → List (Operand × Instr × Byte) :=
  nineForms .ldaImm .ldaZp .ldaZpx .ldaIzx .ldaIzy .ldaIzp .ldaAbs .ldaAbx .ldaAby
    0xA9 0xA5 0xB5 0xAD 0xBD 0xB9 0xA1 0xB1 0xB2
/-- LDX (R142). -/
def ldxForms (b : Byte) (w : Word) : List (Operand × Instr × Byte) :=
  [(.imm b, .ldxImm b, 0xA2), (.mem (.zp b), .ldxZp b, 0xA6), (.mem (.zpy b), .ldxZpy b, 0xB6),
   (.mem (.abs w), .ldxAbs w, 0xAE), (.mem (.aby w), .ldxAby w, 0xBE)]
/-- LDY (R143). -/
def ldyForms (b : Byte) (w : Word) : List (Operand × Instr × Byte) :=
  [(.imm b, .ldyImm b, 0xA0), (.mem (.zp b), .ldyZp b, 0xA4), (.mem (.zpx b), .ldyZpx b, 0xB4),
   (.mem (.abs w), .ldyAbs w, 0xAC), (.mem (.abx w), .ldyAbx w, 0xBC)]

/-- STA (R144). -/
def staForms (b : Byte) (w : Word) : List (AddrMode × Instr × Byte) :=
  [(.zp b, .staZp b, 0x85), (.zpx b, .staZpx b, 0x95), (.abs w, .staAbs w, 0x8D), (.abx w, .staAbx w, 0x9D),
   (.aby w, .staAby w, 0x99), (.izx b, .staIzx b, 0x81), (.izy b, .staIzy b, 0x91), (.izp b, .staIzp b, 0x92)]
/-- STX (R145). -/
def stxForms (b : Byte) (w : Word) : List (AddrMode × Instr × Byte) :=
  [(.zp b, .stxZp b, 0x86), (.zpy b, .stxZpy b, 0x96), (.abs w, .stxAbs w, 0x8E)]
/-- STY (R146). -/
def styForms (b : Byte) (w : Word) : List (AddrMode × Instr × Byte) :=
  [(.zp b, .styZp b, 0x84), (.zpx b, .styZpx b, 0x94), (.abs w, .styAbs w, 0x8C)]
/-- STZ (R147). -/
def stzForms (b : Byte) (w : Word) : List (AddrMode × Instr × Byte) :=
  [(.zp b, .stzZp b, 0x64), (.zpx b, .stzZpx b, 0x74), (.abs w, .stzAbs w, 0x9C), (.abx w, .stzAbx w, 0x9E)]

/-- ADC (R171). -/
def adcForms : Byte → Word → List (Operand × Instr × Byte) :=
  nineForms .adcImm .adcZp .adcZpx .adcIzx .adcIzy .adcIzp .adcAbs .adcAbx .adcAby
    0x69 0x65 0x75 0x6D 0x7D 0x79 0x61 0x71 0x72
/-- SBC (R172). -/
def sbcForms : Byte → Word → List (Operand × Instr × Byte) :=
  nineForms .sbcImm .sbcZp .sbcZpx .sbcIzx .sbcIzy .sbcIzp .sbcAbs .sbcAbx .sbcAby
    0xE9 0xE5 0xF5 0xED 0xFD 0xF9 0xE1 0xF1 0xF2
/-- AND (R173). -/
def andForms : Byte → Word → List (Operand × Instr × Byte) :=
  nineForms .andImm .andZp .andZpx .andIzx .andIzy .andIzp .andAbs .andAbx .andAby
    0x29 0x25 0x35 0x2D 0x3D 0x39 0x21 0x31 0x32
/-- ORA (R174). -/
def oraForms : Byte → Word → List (Operand × Instr × Byte) :=
  nineForms .oraImm .oraZp .oraZpx .oraIzx .oraIzy .oraIzp .oraAbs .oraAbx .oraAby
    0x09 0x05 0x15 0x0D 0x1D 0x19 0x01 0x11 0x12
/-- EOR (R175). -/
def eorForms : Byte → Word → List (Operand × Instr × Byte) :=
  nineForms .eorImm .eorZp .eorZpx .eorIzx .eorIzy .eorIzp .eorAbs .eorAbx .eorAby
    0x49 0x45 0x55 0x4D 0x5D 0x59 0x41 0x51 0x52
/-- CMP (R177). -/
def cmpForms : Byte → Word → List (Operand × Instr × Byte) :=
  nineForms .cmpImm .cmpZp .cmpZpx .cmpIzx .cmpIzy .cmpIzp .cmpAbs .cmpAbx .cmpAby
    0xC9 0xC5 0xD5 0xCD 0xDD 0xD9 0xC1 0xD1 0xD2
/-- CPX (R178). -/
def cpxForms (b : Byte) (w : Word) : List (Operand × Instr × Byte) :=
  [(.imm b, .cpxImm b, 0xE0), (.mem (.zp b), .cpxZp b, 0xE4), (.mem (.abs w), .cpxAbs w, 0xEC)]
/-- CPY (R179). -/
def cpyForms (b : Byte) (w : Word) : List (Operand × Instr × Byte) :=
  [(.imm b, .cpyImm b, 0xC0), (.mem (.zp b), .cpyZp b, 0xC4), (.mem (.abs w), .cpyAbs w, 0xCC)]
/-- BIT (R180). -/
def bitForms (b : Byte) (w : Word) : List (Operand × Instr × Byte) :=
  [(.mem (.zp b), .bitZp b, 0x24), (.mem (.abs w), .bitAbs w, 0x2C), (.mem (.zpx b), .bitZpx b, 0x34),
   (.mem (.abx w), .bitAbx w, 0x3C), (.imm b, .bitImm b, 0x89)]
/-- TSB (R181). -/
def tsbForms (b : Byte) (w : Word) : List (AddrMode × Instr × Byte) :=
  [(.zp b, .tsbZp b, 0x04), (.abs w, .tsbAbs w, 0x0C)]
/-- TRB (R182). -/
def trbForms (b : Byte) (w : Word) : List (AddrMode × Instr × Byte) :=
  [(.zp b, .trbZp b, 0x14), (.abs w, .trbAbs w, 0x1C)]

/-- The four memory forms of the shifts, rotates, increments and decrements, each with its opcode. -/
def fourForms (zp zpx : Byte → Instr) (abs abx : Word → Instr) (oZp oZpx oAbs oAbx : Byte) (b : Byte) (w : Word) :
    List (AddrMode × Instr × Byte) :=
  [(.zp b, zp b, oZp), (.zpx b, zpx b, oZpx), (.abs w, abs w, oAbs), (.abx w, abx w, oAbx)]

/-- ASL on memory (R201). -/
def aslForms := fourForms .aslZp .aslZpx .aslAbs .aslAbx 0x06 0x16 0x0E 0x1E
/-- LSR on memory (R202). -/
def lsrForms := fourForms .lsrZp .lsrZpx .lsrAbs .lsrAbx 0x46 0x56 0x4E 0x5E
/-- ROL on memory (R203). -/
def rolForms := fourForms .rolZp .rolZpx .rolAbs .rolAbx 0x26 0x36 0x2E 0x3E
/-- ROR on memory (R204). -/
def rorForms := fourForms .rorZp .rorZpx .rorAbs .rorAbx 0x66 0x76 0x6E 0x7E
/-- INC on memory (R205). -/
def incForms := fourForms .incZp .incZpx .incAbs .incAbx 0xE6 0xF6 0xEE 0xFE
/-- DEC on memory (R206). -/
def decForms := fourForms .decZp .decZpx .decAbs .decAbx 0xC6 0xD6 0xCE 0xDE

/-- The eight opcodes of a bit-indexed family: bit index, instruction, opcode. -/
def rmbForms (lo : Byte) : List (Nat × Instr × Byte) :=
  [(0, .rmb0 lo, 0x07), (1, .rmb1 lo, 0x17), (2, .rmb2 lo, 0x27), (3, .rmb3 lo, 0x37), (4, .rmb4 lo, 0x47),
   (5, .rmb5 lo, 0x57), (6, .rmb6 lo, 0x67), (7, .rmb7 lo, 0x77)]
/-- SMBn (R232). -/
def smbForms (lo : Byte) : List (Nat × Instr × Byte) :=
  [(0, .smb0 lo, 0x87), (1, .smb1 lo, 0x97), (2, .smb2 lo, 0xA7), (3, .smb3 lo, 0xB7), (4, .smb4 lo, 0xC7),
   (5, .smb5 lo, 0xD7), (6, .smb6 lo, 0xE7), (7, .smb7 lo, 0xF7)]
/-- BBRn (R233). -/
def bbrForms (lo off : Byte) : List (Nat × Instr × Byte) :=
  [(0, .bbr0 lo off, 0x0F), (1, .bbr1 lo off, 0x1F), (2, .bbr2 lo off, 0x2F), (3, .bbr3 lo off, 0x3F),
   (4, .bbr4 lo off, 0x4F), (5, .bbr5 lo off, 0x5F), (6, .bbr6 lo off, 0x6F), (7, .bbr7 lo off, 0x7F)]
/-- BBSn (R234). -/
def bbsForms (lo off : Byte) : List (Nat × Instr × Byte) :=
  [(0, .bbs0 lo off, 0x8F), (1, .bbs1 lo off, 0x9F), (2, .bbs2 lo off, 0xAF), (3, .bbs3 lo off, 0xBF),
   (4, .bbs4 lo off, 0xCF), (5, .bbs5 lo off, 0xDF), (6, .bbs6 lo off, 0xEF), (7, .bbs7 lo off, 0xFF)]

/-- The conditional branches and BRA (R251 to R259): instruction, opcode, whether it is taken in `s`. -/
def branchForms (off : Byte) (s : State) : List (Instr × Byte × Bool) :=
  [(.bcc off, 0x90, !s.p.getLsbD 0), (.bcs off, 0xB0, s.p.getLsbD 0), (.beq off, 0xF0, s.p.getLsbD 1),
   (.bne off, 0xD0, !s.p.getLsbD 1), (.bmi off, 0x30, s.p.getLsbD 7), (.bpl off, 0x10, !s.p.getLsbD 7),
   (.bvc off, 0x50, !s.p.getLsbD 6), (.bvs off, 0x70, s.p.getLsbD 6), (.bra off, 0x80, true)]

/-- The 44 reserved opcodes (R113), with the operand bytes they fetch: instruction, opcode, size. -/
def reservedForms (lo hi : Byte) : List (Instr × Byte × Nat) :=
  [(.res03, 0x03, 1), (.res13, 0x13, 1), (.res23, 0x23, 1), (.res33, 0x33, 1), (.res43, 0x43, 1), (.res53, 0x53, 1),
   (.res63, 0x63, 1), (.res73, 0x73, 1), (.res83, 0x83, 1), (.res93, 0x93, 1), (.resA3, 0xA3, 1), (.resB3, 0xB3, 1),
   (.resC3, 0xC3, 1), (.resD3, 0xD3, 1), (.resE3, 0xE3, 1), (.resF3, 0xF3, 1), (.res0B, 0x0B, 1), (.res1B, 0x1B, 1),
   (.res2B, 0x2B, 1), (.res3B, 0x3B, 1), (.res4B, 0x4B, 1), (.res5B, 0x5B, 1)] ++
  [(.res6B, 0x6B, 1), (.res7B, 0x7B, 1), (.res8B, 0x8B, 1), (.res9B, 0x9B, 1), (.resAB, 0xAB, 1), (.resBB, 0xBB, 1),
   (.resEB, 0xEB, 1), (.resFB, 0xFB, 1), (.res02 lo, 0x02, 2), (.res22 lo, 0x22, 2), (.res42 lo, 0x42, 2),
   (.res62 lo, 0x62, 2), (.res82 lo, 0x82, 2), (.resC2 lo, 0xC2, 2), (.resE2 lo, 0xE2, 2), (.res44 lo, 0x44, 2),
   (.res54 lo, 0x54, 2), (.resD4 lo, 0xD4, 2), (.resF4 lo, 0xF4, 2), (.res5C lo hi, 0x5C, 3), (.resDC lo hi, 0xDC, 3),
   (.resFC lo hi, 0xFC, 3)]

/-- The instruction runs in `s` as a read-modify-write on memory (R200): one read at the effective address, one write of
`r` there, then `P` becomes `p'`; nothing else changes. -/
def ModifiesByte (m : AddrMode) (i : Instr) (r p' : Byte) (s : State) : Prop :=
  ∃ t, exec i s = .next t ∧ WroteByte (eaOf m s) r (afterRead (eaOf m s) s) { t with p := s.p } ∧ t.p = p'

end Sys2Proof.Machine

open Sys2Proof Sys2Proof.Machine

/-! ### Encoding -/

/-- No bit of an encoding is dropped: the encoding of any instruction, followed by anything, decodes to it and leaves
what follows (R102, R112). -/
def Obligations.DecodeOfEncodeIsIdentity : Prop :=
  ∀ (i : Instr) (rest : List Byte), decode (encode i ++ rest) = .ok (i, rest)

/-- The other direction: what the decoder reads is the encoding of what it answers, so each byte string has one
meaning. -/
def Obligations.EncodeOfDecodeIsIdentity : Prop :=
  ∀ (bytes : List Byte) (i : Instr) (rest : List Byte), decode bytes = .ok (i, rest) → bytes = encode i ++ rest

/-- Every opcode, with any bytes after it, is an instruction of the size the table gives, and the instruction runs to a
next state in every state; the reserved ones change nothing (R116). -/
def Obligations.EveryOpcodeDecodesAndRuns : Prop :=
  (∀ op lo hi : Byte, ∃ (i : Instr) (rest : List Byte), decode [op, lo, hi] = .ok (i, rest) ∧
    encode i = [op, lo, hi].take (Config.size op) ∧ ∀ s : State, ∃ t, exec i s = .next t) ∧
  ∀ (lo hi : Byte) (s : State), ∀ f ∈ reservedForms lo hi, exec f.1 s = .next s

/-- Words written out from the encodings of the rules, one or two of each family, decode to their instructions (R108,
R111, R113, R141, R171, R205, R233, R259, R260, R300), and so do the source's own six bytes (R119). -/
def Obligations.WordsOfEachFamilyDecode : Prop :=
  decode [0xB1, 0x10] = .ok (.ldaIzy 0x10, []) ∧ decode [0x6D, 0x34, 0x12] = .ok (.adcAbs 0x1234, []) ∧
  decode [0xFE, 0x00, 0x02] = .ok (.incAbx 0x0200, []) ∧ decode [0x0F, 0x12, 0x05] = .ok (.bbr0 0x12 0x05, []) ∧
  decode [0x80, 0xFE] = .ok (.bra 0xFE, []) ∧ decode [0x7C, 0x10, 0x02] = .ok (.jmpIax 0x0210, []) ∧
  decode [0x00, 0xEA] = .ok (.brk, [0xEA]) ∧ decode [0x5C, 0x34, 0x12] = .ok (.res5C 0x34 0x12, []) ∧
  disassemble 0x0000 [0xA2, 0xFF, 0x9A, 0x20, 0x8B, 0xE4] =
    [(0x0000, .ldxImm 0xFF), (0x0002, .txs), (0x0003, .jsr 0xE48B)]

/-! ### The step -/

/-- When the bytes at `PC`, outside the device windows, decode to `i`, the step is `i` run with `PC` past it (R101).
That unmapped space reads as 0xEA (`plainByte`) is the spec's own decision D12 (R70; log 12). -/
def Obligations.StepRunsDecodedInstruction : Prop :=
  ∀ (s : State) (i : Instr) (rest : List Byte), s.st = .running →
    ¬ inDeviceWindow s.pc → ¬ inDeviceWindow (s.pc + 1) → ¬ inDeviceWindow (s.pc + 2) →
    decode [plainByte s s.pc, plainByte s (s.pc + 1), plainByte s (s.pc + 2)] = .ok (i, rest) →
    step s = exec i { s with pc := s.pc + BitVec.ofNat 16 (encode i).length }

/-- The step from anywhere, device windows among them (R101): the opcode is read first, then as many operand bytes as
`SIZE[op]` says, in address order, each read's effect seen by the next; the body runs with `PC = PCn`; the report holds
the bytes read. -/
def Obligations.StepFetchesThenRuns : Prop :=
  ∀ s : State, s.st = .running →
    let o := memRead s.pc s
    let l := memRead (s.pc + 1) o.2
    let h := memRead (s.pc + 2) l.2
    (Config.size o.1 = 1 → ∃ i, decode [o.1] = .ok (i, []) ∧ step s = exec i { o.2 with pc := s.pc + 1 } ∧
      stepReport s = .executed o.1 none none) ∧
    (Config.size o.1 = 2 → ∃ i, decode [o.1, l.1] = .ok (i, []) ∧ step s = exec i { l.2 with pc := s.pc + 2 } ∧
      stepReport s = .executed o.1 (some l.1) none) ∧
    (Config.size o.1 = 3 → ∃ i, decode [o.1, l.1, h.1] = .ok (i, []) ∧ step s = exec i { h.2 with pc := s.pc + 3 } ∧
      stepReport s = .executed o.1 (some l.1) (some h.1)) ∧
    (Config.size o.1 = 1 ∨ Config.size o.1 = 2 ∨ Config.size o.1 = 3)

/-- The boot step (R423): `PC` from 0xFFFC (low) and 0xFFFD (high), `ST` running, and, by the spec's own decision D39,
nothing else. -/
def Obligations.BootStepLoadsResetVector : Prop :=
  ∀ s : State, s.st = .booting →
    step s = .next { s with pc := memWord s 0xFFFC 0xFFFD, st := .running } ∧
    stepReport s = .bootJump (memWord s 0xFFFC 0xFFFD)

/-- The transitions of `ST` (R32): reset, the boot step, an instruction, WAI, STP, a step while waiting or stopped, and
`resume`, its no-op in running being the spec's own derivation and its refusal in booting the spec's own decision D15.
-/
def Obligations.ExecutionStateTransitions : Prop :=
  (∀ (sel : Subsystems) (d : CpuDraws) (s : State), sel.cpu = true → (resetSubsystems sel d s).st = .booting ∧
    (resetSubsystems sel d s).a = d.a ∧ (resetSubsystems sel d s).x = d.x ∧ (resetSubsystems sel d s).y = d.y ∧
    (resetSubsystems sel d s).sp = d.sp ∧ (resetSubsystems sel d s).p = d.p ||| 0x20) ∧
  (∀ s : State, s.st = .booting → step s = .next { s with pc := memWord s 0xFFFC 0xFFFD, st := .running } ∧
    stepReport s = .bootJump (memWord s 0xFFFC 0xFFFD)) ∧
  (∀ (i : Instr) (s : State), i ≠ .wai → i ≠ .stp → ∃ t, exec i s = .next t ∧ t.st = s.st) ∧
  (∀ s : State, exec .wai s = .next { s with st := .waiting }) ∧
  (∀ s : State, exec .stp s = .next { s with st := .stopped }) ∧
  (∀ s : State, s.st = .waiting → step s = .next s ∧ stepReport s = .waiting ∧
    resume s = .next { s with st := .running }) ∧
  (∀ s : State, s.st = .stopped → step s = .next s ∧ stepReport s = .stopped ∧
    resume s = .next { s with st := .running }) ∧
  (∀ s : State, s.st = .running → resume s = .next s) ∧
  (∀ s : State, s.st = .booting → resume s = .refused .resumeWhileBooting)

/-- The contract is total (R320): every state has a next state, whatever the memory and the pin draws. -/
def Obligations.EveryStepHasNextState : Prop := ∀ s : State, ∃ t, step s = .next t

/-- The state after reset meets the invariant. The values of the CPU registers and of unwritten memory at reset are the
model's choice (log 1, log 2, log 3). -/
def Obligations.ResetMeetsInvariant : Prop := Inv State.reset

/-- Every step keeps the invariant: memory stays canonical, bit 5 of `P` stays set (R25), the UART's counts stay in
range, the LCD is never busy. -/
def Obligations.EveryStepKeepsInvariant : Prop := ∀ s t : State, Inv s → step s = .next t → Inv t

/-- Every call of the host keeps the invariant: R425, R420, R426, R427, R428, R429, and the looped helpers of R430,
which end in a next state, the one that stops on an address at that address (their bound on the steps is log 10). For
`reset` it rests on the devices' reset values, the spec's own decision D34 (R46, R52; log 13); that bit 5 of `P` is 1
after a reset is its decision D8 (R25), and that the LCD is never busy D31 (R51). -/
def Obligations.HostCallsKeepInvariant : Prop :=
  ∀ s : State, Inv s →
    (∀ t, resume s = .next t → Inv t) ∧
    (∀ sel d, Inv (resetSubsystems sel d s)) ∧
    (∀ data off t, program data off s = .next t → Inv t) ∧
    (∀ b, Inv (receiveBit b s)) ∧
    (∀ r, transmitBit s = .next r → Inv r.2) ∧
    (∀ a pa pb, Inv (load a pa pb s).2) ∧
    (∀ a v, Inv (store a v s)) ∧
    (∀ i pa pb, Inv (viaRead i pa pb s).2) ∧
    (∀ i v, Inv (viaWrite i v s)) ∧
    (∀ i, Inv (uartRead i s).2) ∧
    (∀ i v, Inv (uartWrite i v s)) ∧
    (∀ rs rw d, Inv (lcdExecute rs rw d s).2) ∧
    (∀ n, ∃ t, executeCount n s = .next t ∧ Inv t) ∧
    (∀ a n r, executeUntilAddress a n s = some r → ∃ t, r = .next t ∧ t.pc = a ∧ Inv t) ∧
    (∀ b n r, executeUntilOpcode b n s = some r → ∃ t, r = .next t ∧ Inv t)

/-- No step changes a byte of ROM (R69: a bus write into the region is discarded, the spec's own decision D13). -/
def Obligations.RomIsNeverChangedByAStep : Prop :=
  ∀ s t : State, step s = .next t → ∀ k, 0xE000 ≤ k → Memory.read t.mem k = Memory.read s.mem k

/-- What no step can change, whatever it runs: the receive side and the transmit shift of the UART move only by the
host's `receiveBit` and `transmitBit` (R427), the VIA's second latch has no index (R352, C6), and no rule writes
`F_SHIFT` or `F_BUSY` (R47, R51). The transmit count only ever becomes 8, by a data write. That no index reaches `T2L`
is the spec's own decision D18, that nothing sets `F_BUSY` its decision D31 (log 12). -/
def Obligations.DeviceStateOnlyTheHostChanges : Prop :=
  ∀ s t : State, step s = .next t →
    t.uart.rdr = s.uart.rdr ∧ t.uart.rsr = s.uart.rsr ∧ t.uart.rxcnt = s.uart.rxcnt ∧
    t.via.t2l = s.via.t2l ∧ t.lcd.fShift = s.lcd.fShift ∧ t.lcd.fBusy = s.lcd.fBusy ∧
    (t.uart.txcnt = s.uart.txcnt ∧ t.uart.tsr = s.uart.tsr ∨ t.uart.txcnt = 8 ∧ t.uart.tsr = t.uart.tdr)

/-- Who writes I, D, B and bit 5 of `P` (R24, R28): I only CLI, SEI, BRK, PLP, RTI; D only CLD, SED, BRK, PLP, RTI; B
only PLP and RTI; bit 5 is never cleared. That PLP and RTI force bit 5 is the spec's own decision D8, what BRK writes
D10. -/
def Obligations.WritersOfStoredFlags : Prop :=
  ∀ (i : Instr) (s : State), ∃ t, exec i s = .next t ∧
    (i ∉ [.cli, .sei, .brk, .plp, .rti] → t.p.getLsbD 2 = s.p.getLsbD 2) ∧
    (i ∉ [.cld, .sed, .brk, .plp, .rti] → t.p.getLsbD 3 = s.p.getLsbD 3) ∧
    (i ∉ [.plp, .rti] → t.p.getLsbD 4 = s.p.getLsbD 4) ∧
    (s.p.getLsbD 5 = true → t.p.getLsbD 5 = true)

/-! ### The bus -/

/-- `MemRead` (R62), region by region; `UNMAPPED_READ` is the parameter. -/
def Obligations.BusReadByRegion : Prop :=
  ∀ (a : Word) (s : State),
    (a.toNat ≤ 0x3FFF → memRead a s = (Memory.read s.mem a.toNat, s)) ∧
    (0x4000 ≤ a.toNat → a.toNat ≤ 0x5FFF →
      memRead a s = ((s.uart.read (BitVec.ofNat 2 (a.toNat % 4))).1,
        { s with uart := (s.uart.read (BitVec.ofNat 2 (a.toNat % 4))).2 })) ∧
    (0x6000 ≤ a.toNat → a.toNat ≤ 0x7FFF →
      memRead a s = viaLcdRead (BitVec.ofNat 4 (a.toNat % 16)) (Config.pinAIn s.pinDraws) (Config.pinBIn s.pinDraws)
        { s with pinDraws := s.pinDraws + 1 }) ∧
    (0x8000 ≤ a.toNat → a.toNat ≤ 0xDFFF → memRead a s = (Config.unmappedRead, s)) ∧
    (0xE000 ≤ a.toNat → memRead a s = (Memory.read s.mem a.toNat, s))

/-- `MemWrite` (R63), region by region (`WroteByte`), with `ROM_BUS_WRITABLE = false`, the spec's own decision D13
(R69). -/
def Obligations.BusWriteByRegion : Prop := ∀ (a : Word) (v : Byte) (s : State), WroteByte a v s (memWrite a v s)

/-- A read returns the most recent write to the same cell of RAM (R78 (1)), and a write disturbs no other plain
address. -/
def Obligations.RamReadReturnsLastWrite : Prop :=
  ∀ (a : Word) (v : Byte) (s : State), Memory.wf s.mem → a.toNat ≤ 0x3FFF →
    memRead a (memWrite a v s) = (v, memWrite a v s) ∧
    ∀ b : Word, b ≠ a → ¬ inDeviceWindow b →
      memRead b (memWrite a v s) = ((memRead b s).1, memWrite a v s)

/-- Mirroring (R67, R68): the UART's 4 indices repeat 2048 times, the VIA's 16 indices 512 times, and every access of
the VIA window, at any mirror, goes through the coupling (`LcdCouplingGate` says what that is). -/
def Obligations.DeviceWindowsMirror : Prop :=
  (∀ (k i : Nat) (v : Byte) (s : State), k < 2048 → i < 4 →
    memRead (BitVec.ofNat 16 (0x4000 + 4 * k + i)) s =
      ((s.uart.read (BitVec.ofNat 2 i)).1, { s with uart := (s.uart.read (BitVec.ofNat 2 i)).2 }) ∧
    memWrite (BitVec.ofNat 16 (0x4000 + 4 * k + i)) v s = { s with uart := s.uart.write (BitVec.ofNat 2 i) v }) ∧
  (∀ (k i : Nat) (v : Byte) (s : State), k < 512 → i < 16 →
    memRead (BitVec.ofNat 16 (0x6000 + 16 * k + i)) s =
      viaLcdRead (BitVec.ofNat 4 i) (Config.pinAIn s.pinDraws) (Config.pinBIn s.pinDraws)
        { s with pinDraws := s.pinDraws + 1 } ∧
    memWrite (BitVec.ofNat 16 (0x6000 + 16 * k + i)) v s =
      { viaLcdWrite (BitVec.ofNat 4 i) v (Config.pinAIn s.pinDraws) (Config.pinBIn s.pinDraws) s with
        pinDraws := s.pinDraws + 1 })

/-! ### Load, store, transfer -/

/-- LDA, LDX, LDY (R141 to R143): the register takes the operand, N and Z follow it; the operand's read may change the
UART, the LCD and the pin draws, and nothing else changes. -/
def Obligations.LoadsSetRegisterNZ : Prop :=
  ∀ (b : Byte) (w : Word) (s : State),
    (∀ f ∈ ldaForms b w, EncodedBy f.2.1 f.2.2 ∧ exec f.2.1 s =
      .next { operandAfter f.1 s with a := operandByte f.1 s, p := pNZ s.p (operandByte f.1 s) }) ∧
    (∀ f ∈ ldxForms b w, EncodedBy f.2.1 f.2.2 ∧ exec f.2.1 s =
      .next { operandAfter f.1 s with x := operandByte f.1 s, p := pNZ s.p (operandByte f.1 s) }) ∧
    (∀ f ∈ ldyForms b w, EncodedBy f.2.1 f.2.2 ∧ exec f.2.1 s =
      .next { operandAfter f.1 s with y := operandByte f.1 s, p := pNZ s.p (operandByte f.1 s) })

/-- STA, STX, STY, STZ (R144 to R147): exactly one bus write at the effective address, no flag, no register. -/
def Obligations.StoresWriteOneByte : Prop :=
  ∀ (b : Byte) (w : Word) (s : State),
    (∀ f ∈ staForms b w, EncodedBy f.2.1 f.2.2 ∧ ∃ t, exec f.2.1 s = .next t ∧ WroteByte (eaOf f.1 s) s.a s t) ∧
    (∀ f ∈ stxForms b w, EncodedBy f.2.1 f.2.2 ∧ ∃ t, exec f.2.1 s = .next t ∧ WroteByte (eaOf f.1 s) s.x s t) ∧
    (∀ f ∈ styForms b w, EncodedBy f.2.1 f.2.2 ∧ ∃ t, exec f.2.1 s = .next t ∧ WroteByte (eaOf f.1 s) s.y s t) ∧
    (∀ f ∈ stzForms b w, EncodedBy f.2.1 f.2.2 ∧ ∃ t, exec f.2.1 s = .next t ∧ WroteByte (eaOf f.1 s) 0x00 s t)

/-- The six transfers (R148 to R153): TXS alone writes no flag. -/
def Obligations.TransfersCopyRegister : Prop :=
  EncodedBy .tax 0xAA ∧ EncodedBy .tay 0xA8 ∧ EncodedBy .txa 0x8A ∧ EncodedBy .tya 0x98 ∧ EncodedBy .tsx 0xBA ∧
  EncodedBy .txs 0x9A ∧
  ∀ s : State,
    exec .tax s = .next { s with x := s.a, p := pNZ s.p s.a } ∧
    exec .tay s = .next { s with y := s.a, p := pNZ s.p s.a } ∧
    exec .txa s = .next { s with a := s.x, p := pNZ s.p s.x } ∧
    exec .tya s = .next { s with a := s.y, p := pNZ s.p s.y } ∧
    exec .tsx s = .next { s with x := s.sp, p := pNZ s.p s.sp } ∧
    exec .txs s = .next { s with sp := s.x }

/-! ### Arithmetic, logic, compare, bit test -/

/-- The adder against exact arithmetic, for an addition and for a subtraction (the addition of the complement, the carry
as not-borrow): the result modulo 256, the carry, and the overflow as "the signed result lies outside -128..127". The
closed forms are the derivations that R170 and R172 mark as their own. -/
def Obligations.AdderIsExact : Prop :=
  ∀ (a m : Byte) (c : Bool),
    let add := add8 a m c
    let sub := add8 a (~~~m) c
    let borrow := 1 - c.toNat
    add.r.toNat = (a.toNat + m.toNat + c.toNat) % 256 ∧
    (add.cout = true ↔ a.toNat + m.toNat + c.toNat > 255) ∧
    (add.v = true ↔ a.toInt + m.toInt + c.toNat < -128 ∨ a.toInt + m.toInt + c.toNat > 127) ∧
    sub.r.toNat = (a.toNat + 512 - m.toNat - borrow) % 256 ∧
    (sub.cout = true ↔ m.toNat + borrow ≤ a.toNat) ∧
    (sub.v = true ↔ a.toInt - m.toInt - borrow < -128 ∨ a.toInt - m.toInt - borrow > 127)

/-- ADC (R171), binary whatever D holds: the 9-bit sum's low byte in A, its bit 8 in C, V when the operands share a sign
that the result does not, N and Z; nothing else but the operand's read. -/
def Obligations.AddWithCarry : Prop :=
  ∀ (b : Byte) (w : Word) (s : State), ∀ f ∈ adcForms b w, EncodedBy f.2.1 f.2.2 ∧
    let m := operandByte f.1 s
    let sum := s.a.toNat + m.toNat + carryNat s
    let r := BitVec.ofNat 8 (sum % 256)
    exec f.2.1 s = .next { operandAfter f.1 s with
      a := r
      p := pWith s.p (some (r.getLsbD 7)) (some (s.a.getLsbD 7 == m.getLsbD 7 && r.getLsbD 7 != s.a.getLsbD 7))
        (some (decide (r = 0))) (some (decide (sum > 255))) }

/-- SBC (R172), binary whatever D holds: the addition of the complement `255 - M`, the carry as not-borrow. That V is "A
and M differ in sign and the result differs from A in sign" is the derivation that R172 marks as its own. -/
def Obligations.SubtractWithBorrow : Prop :=
  ∀ (b : Byte) (w : Word) (s : State), ∀ f ∈ sbcForms b w, EncodedBy f.2.1 f.2.2 ∧
    let m := operandByte f.1 s
    let sum := s.a.toNat + (255 - m.toNat) + carryNat s
    let r := BitVec.ofNat 8 (sum % 256)
    exec f.2.1 s = .next { operandAfter f.1 s with
      a := r
      p := pWith s.p (some (r.getLsbD 7)) (some (s.a.getLsbD 7 != m.getLsbD 7 && r.getLsbD 7 != s.a.getLsbD 7))
        (some (decide (r = 0))) (some (decide (sum > 255))) }

/-- AND, ORA, EOR (R173 to R175): the bitwise result in A, N and Z; C and V kept. -/
def Obligations.LogicOperations : Prop :=
  ∀ (b : Byte) (w : Word) (s : State),
    (∀ f ∈ andForms b w, EncodedBy f.2.1 f.2.2 ∧ exec f.2.1 s = .next { operandAfter f.1 s with
      a := s.a &&& operandByte f.1 s, p := pNZ s.p (s.a &&& operandByte f.1 s) }) ∧
    (∀ f ∈ oraForms b w, EncodedBy f.2.1 f.2.2 ∧ exec f.2.1 s = .next { operandAfter f.1 s with
      a := s.a ||| operandByte f.1 s, p := pNZ s.p (s.a ||| operandByte f.1 s) }) ∧
    (∀ f ∈ eorForms b w, EncodedBy f.2.1 f.2.2 ∧ exec f.2.1 s = .next { operandAfter f.1 s with
      a := s.a ^^^ operandByte f.1 s, p := pNZ s.p (s.a ^^^ operandByte f.1 s) })

/-- CMP, CPX, CPY (R177 to R179): C is `R >= M`, Z is `R = M`, N is bit 7 of the difference; V and the register kept.
The closed forms are the derivation that R176 marks as its own. -/
def Obligations.CompareOperations : Prop :=
  ∀ (b : Byte) (w : Word) (s : State),
    (∀ f ∈ cmpForms b w, EncodedBy f.2.1 f.2.2 ∧ exec f.2.1 s = .next { operandAfter f.1 s with
      p := pWith s.p (some ((s.a - operandByte f.1 s).getLsbD 7)) none (some (decide (s.a = operandByte f.1 s)))
        (some (decide ((operandByte f.1 s).toNat ≤ s.a.toNat))) }) ∧
    (∀ f ∈ cpxForms b w, EncodedBy f.2.1 f.2.2 ∧ exec f.2.1 s = .next { operandAfter f.1 s with
      p := pWith s.p (some ((s.x - operandByte f.1 s).getLsbD 7)) none (some (decide (s.x = operandByte f.1 s)))
        (some (decide ((operandByte f.1 s).toNat ≤ s.x.toNat))) }) ∧
    (∀ f ∈ cpyForms b w, EncodedBy f.2.1 f.2.2 ∧ exec f.2.1 s = .next { operandAfter f.1 s with
      p := pWith s.p (some ((s.y - operandByte f.1 s).getLsbD 7)) none (some (decide (s.y = operandByte f.1 s)))
        (some (decide ((operandByte f.1 s).toNat ≤ s.y.toNat))) })

/-- BIT (R180) with `BIT_IMM_NV = true`, the spec's own decision D5: N and V are the operand's bits 7 and 6 in every
form, Z says `A & M = 0`; A and memory kept. -/
def Obligations.BitTestFlags : Prop :=
  ∀ (b : Byte) (w : Word) (s : State), ∀ f ∈ bitForms b w, EncodedBy f.2.1 f.2.2 ∧
    exec f.2.1 s = .next { operandAfter f.1 s with
      p := pWith s.p (some ((operandByte f.1 s).getLsbD 7)) (some ((operandByte f.1 s).getLsbD 6))
        (some (decide (s.a &&& operandByte f.1 s = 0))) none }

/-- TSB and TRB (R181, R182): one read and one write at the same address, Z alone from the byte before the write. That a
write to ROM is discarded is the spec's own decision D13 (R69; log 12). -/
def Obligations.TestAndSetResetBits : Prop :=
  ∀ (b : Byte) (w : Word) (s : State),
    (∀ f ∈ tsbForms b w, EncodedBy f.2.1 f.2.2 ∧
      ModifiesByte f.1 f.2.1 (byteAt (eaOf f.1 s) s ||| s.a)
        (pWith s.p none none (some (decide (s.a &&& byteAt (eaOf f.1 s) s = 0))) none) s) ∧
    (∀ f ∈ trbForms b w, EncodedBy f.2.1 f.2.2 ∧
      ModifiesByte f.1 f.2.1 (byteAt (eaOf f.1 s) s &&& ~~~s.a)
        (pWith s.p none none (some (decide (s.a &&& byteAt (eaOf f.1 s) s = 0))) none) s)

/-! ### Shifts, rotates, increments, decrements -/

/-- ASL, LSR, ROL, ROR in the accumulator and on memory (R200 to R204), in natural numbers: the bit shifted out goes to
C, the old C enters a rotate at the vacated end; on memory one read and one write at the same address. That the
accumulator forms compute the memory forms' functions is the spec's own decision D6, and that a write to ROM is
discarded its decision D13 (R69; log 12). -/
def Obligations.ShiftsAndRotates : Prop :=
  (EncodedBy .aslAcc 0x0A ∧ EncodedBy .lsrAcc 0x4A ∧ EncodedBy .rolAcc 0x2A ∧ EncodedBy .rorAcc 0x6A) ∧
  ∀ s : State,
    let asl := fun v : Byte => BitVec.ofNat 8 (2 * v.toNat)
    let lsr := fun v : Byte => BitVec.ofNat 8 (v.toNat / 2)
    let rol := fun v : Byte => BitVec.ofNat 8 (2 * v.toNat + carryNat s)
    let ror := fun v : Byte => BitVec.ofNat 8 (v.toNat / 2 + 128 * carryNat s)
    let high := fun v : Byte => decide (128 ≤ v.toNat)
    let low := fun v : Byte => decide (v.toNat % 2 = 1)
    exec .aslAcc s = .next { s with a := asl s.a, p := pNZC s.p (asl s.a) (high s.a) } ∧
    exec .lsrAcc s = .next { s with a := lsr s.a, p := pNZC s.p (lsr s.a) (low s.a) } ∧
    exec .rolAcc s = .next { s with a := rol s.a, p := pNZC s.p (rol s.a) (high s.a) } ∧
    exec .rorAcc s = .next { s with a := ror s.a, p := pNZC s.p (ror s.a) (low s.a) } ∧
    ∀ (b : Byte) (w : Word),
      (∀ f ∈ aslForms b w, EncodedBy f.2.1 f.2.2 ∧
        let v := byteAt (eaOf f.1 s) s
        ModifiesByte f.1 f.2.1 (asl v) (pNZC s.p (asl v) (high v)) s) ∧
      (∀ f ∈ lsrForms b w, EncodedBy f.2.1 f.2.2 ∧
        let v := byteAt (eaOf f.1 s) s
        ModifiesByte f.1 f.2.1 (lsr v) (pNZC s.p (lsr v) (low v)) s) ∧
      (∀ f ∈ rolForms b w, EncodedBy f.2.1 f.2.2 ∧
        let v := byteAt (eaOf f.1 s) s
        ModifiesByte f.1 f.2.1 (rol v) (pNZC s.p (rol v) (high v)) s) ∧
      (∀ f ∈ rorForms b w, EncodedBy f.2.1 f.2.2 ∧
        let v := byteAt (eaOf f.1 s) s
        ModifiesByte f.1 f.2.1 (ror v) (pNZC s.p (ror v) (low v)) s)

/-- INC and DEC, accumulator and memory (R205, R206): modulo 256, N and Z; C and V kept. That a write to ROM is
discarded is the spec's own decision D13 (R69; log 12). -/
def Obligations.IncrementAndDecrement : Prop :=
  EncodedBy .incAcc 0x1A ∧ EncodedBy .decAcc 0x3A ∧
  ∀ (b : Byte) (w : Word) (s : State),
    exec .incAcc s = .next { s with
      a := BitVec.ofNat 8 (s.a.toNat + 1), p := pNZ s.p (BitVec.ofNat 8 (s.a.toNat + 1)) } ∧
    exec .decAcc s = .next { s with
      a := BitVec.ofNat 8 (s.a.toNat + 255), p := pNZ s.p (BitVec.ofNat 8 (s.a.toNat + 255)) } ∧
    (∀ f ∈ incForms b w, EncodedBy f.2.1 f.2.2 ∧
      let r := BitVec.ofNat 8 ((byteAt (eaOf f.1 s) s).toNat + 1)
      ModifiesByte f.1 f.2.1 r (pNZ s.p r) s) ∧
    (∀ f ∈ decForms b w, EncodedBy f.2.1 f.2.2 ∧
      let r := BitVec.ofNat 8 ((byteAt (eaOf f.1 s) s).toNat + 255)
      ModifiesByte f.1 f.2.1 r (pNZ s.p r) s)

/-- INX, INY, DEX, DEY (R207 to R210). -/
def Obligations.IndexIncrementAndDecrement : Prop :=
  EncodedBy .inx 0xE8 ∧ EncodedBy .iny 0xC8 ∧ EncodedBy .dex 0xCA ∧ EncodedBy .dey 0x88 ∧
  ∀ s : State,
    exec .inx s = .next { s with
      x := BitVec.ofNat 8 (s.x.toNat + 1), p := pNZ s.p (BitVec.ofNat 8 (s.x.toNat + 1)) } ∧
    exec .iny s = .next { s with
      y := BitVec.ofNat 8 (s.y.toNat + 1), p := pNZ s.p (BitVec.ofNat 8 (s.y.toNat + 1)) } ∧
    exec .dex s = .next { s with
      x := BitVec.ofNat 8 (s.x.toNat + 255), p := pNZ s.p (BitVec.ofNat 8 (s.x.toNat + 255)) } ∧
    exec .dey s = .next { s with
      y := BitVec.ofNat 8 (s.y.toNat + 255), p := pNZ s.p (BitVec.ofNat 8 (s.y.toNat + 255)) }

/-! ### Bit-indexed families -/

/-- RMBn and SMBn (R231, R232): the zero-page byte with bit n reset or set is stored, no flag, no register. -/
def Obligations.ResetAndSetMemoryBit : Prop :=
  ∀ (lo : Byte) (s : State),
    (∀ f ∈ rmbForms lo, EncodedBy f.2.1 f.2.2 ∧ ∃ m, exec f.2.1 s = .next { s with mem := m } ∧
      MemChanged s.mem [(lo.toNat, Memory.read s.mem lo.toNat &&& ~~~(BitVec.ofNat 8 (2 ^ f.1)))] m) ∧
    (∀ f ∈ smbForms lo, EncodedBy f.2.1 f.2.2 ∧ ∃ m, exec f.2.1 s = .next { s with mem := m } ∧
      MemChanged s.mem [(lo.toNat, Memory.read s.mem lo.toNat ||| BitVec.ofNat 8 (2 ^ f.1))] m)

/-- BBRn and BBSn (R233, R234): `PC` alone changes, by the signed offset when bit n of the zero-page byte is 0, or 1. -/
def Obligations.BranchOnMemoryBit : Prop :=
  ∀ (lo off : Byte) (s : State),
    (∀ f ∈ bbrForms lo off, EncodedBy f.2.1 f.2.2 ∧ exec f.2.1 s = .next { s with
      pc := if (Memory.read s.mem lo.toNat).getLsbD f.1 = false then branchTarget s.pc off else s.pc }) ∧
    (∀ f ∈ bbsForms lo off, EncodedBy f.2.1 f.2.2 ∧ exec f.2.1 s = .next { s with
      pc := if (Memory.read s.mem lo.toNat).getLsbD f.1 = true then branchTarget s.pc off else s.pc })

/-! ### Branches, jumps, subroutines -/

/-- The nine branches (R250 to R259): `PC` alone changes, by the signed offset from the next instruction. -/
def Obligations.BranchesChangeOnlyPC : Prop :=
  ∀ (off : Byte) (s : State), ∀ f ∈ branchForms off s, EncodedBy f.1 f.2.1 ∧
    exec f.1 s = .next { s with pc := if f.2.2 then branchTarget s.pc off else s.pc }

/-- JMP (R260, R110): absolute; through a pointer, whose high byte is in the same page or at the next address as the
OPEN parameter says; through an indexed pointer, with 16-bit arithmetic. The stack and the flags are not touched. -/
def Obligations.JumpForms : Prop :=
  ∀ (addr : Word) (s : State),
    let hiAddr : Word := BitVec.ofNat 16
      (if Config.jmpIndPageWrap then addr.toNat / 256 * 256 + (addr.toNat + 1) % 256 else addr.toNat + 1)
    let p : Word := BitVec.ofNat 16 (addr.toNat + s.x.toNat)
    let s1 := afterRead addr s
    let s2 := afterRead p s
    EncodedBy (.jmpAbs addr) 0x4C ∧ EncodedBy (.jmpInd addr) 0x6C ∧ EncodedBy (.jmpIax addr) 0x7C ∧
    exec (.jmpAbs addr) s = .next { s with pc := addr } ∧
    exec (.jmpInd addr) s = .next { afterRead hiAddr s1 with
      pc := BitVec.ofNat 16 ((byteAt addr s).toNat + 256 * (byteAt hiAddr s1).toNat) } ∧
    exec (.jmpIax addr) s = .next { afterRead (p + 1) s2 with
      pc := BitVec.ofNat 16 ((byteAt p s).toNat + 256 * (byteAt (p + 1) s2).toNat) }

/-- JSR (R261): the address of its last byte, high byte first, so that it lies little-endian on the stack. The stack's
direction is the spec's own decision D9. -/
def Obligations.SubroutineCall : Prop :=
  ∀ (addr : Word) (s : State), EncodedBy (.jsr addr) 0x20 ∧
    ∃ m, exec (.jsr addr) s = .next { s with mem := m, sp := s.sp - 2, pc := addr } ∧
      MemChanged s.mem
        [(stackCell s.sp, BitVec.ofNat 8 ((s.pc - 1).toNat / 256)),
         (stackCell (s.sp - 1), BitVec.ofNat 8 ((s.pc - 1).toNat % 256))] m

/-- RTS (R262): an indirect jump to the stacked word plus 1. The stack's direction is the spec's own decision D9. -/
def Obligations.SubroutineReturn : Prop :=
  EncodedBy .rts 0x60 ∧ ∀ s : State,
    exec .rts s = .next { s with
      sp := s.sp + 2, pc := memWord s (stackCell (s.sp + 1)) (stackCell (s.sp + 2)) + 1 }

/-- A return undoes a call: from any state with the call's stack, RTS goes to the instruction after the JSR and restores
`SP` (R261, R262). -/
def Obligations.CallThenReturnResumes : Prop :=
  ∀ (addr : Word) (s : State), Memory.wf s.mem → ∃ t, exec (.jsr addr) s = .next t ∧
    ∀ u : State, u.mem = t.mem → u.sp = t.sp → exec .rts u = .next { u with pc := s.pc, sp := s.sp }

/-! ### Stack, flags, no-op, system -/

/-- PHA, PHX, PHY, PHP (R280 to R283): one byte to the cell `SP` designates, `SP` one less modulo 256; PHP pushes
`P | 0x30`. The stack's direction and the pushed bits are the spec's own decisions D9 and D8. -/
def Obligations.PushInstructions : Prop :=
  EncodedBy .pha 0x48 ∧ EncodedBy .phx 0xDA ∧ EncodedBy .phy 0x5A ∧ EncodedBy .php 0x08 ∧
  ∀ s : State, ∀ f ∈ [(Instr.pha, s.a), (.phx, s.x), (.phy, s.y), (.php, s.p ||| 0x30)],
    ∃ m, exec f.1 s = .next { s with mem := m, sp := s.sp - 1 } ∧ MemChanged s.mem [(stackCell s.sp, f.2)] m

/-- PLA, PLX, PLY, PLP (R284 to R287): `SP` one more modulo 256, the byte of the cell it then designates; N and Z, or
for PLP all of `P` with bit 5 forced. The stack's direction and the forced bit are the spec's own decisions D9 and D8.
-/
def Obligations.PullInstructions : Prop :=
  EncodedBy .pla 0x68 ∧ EncodedBy .plx 0xFA ∧ EncodedBy .ply 0x7A ∧ EncodedBy .plp 0x28 ∧
  ∀ s : State,
    let v := Memory.read s.mem (stackCell (s.sp + 1))
    exec .pla s = .next { s with sp := s.sp + 1, a := v, p := pNZ s.p v } ∧
    exec .plx s = .next { s with sp := s.sp + 1, x := v, p := pNZ s.p v } ∧
    exec .ply s = .next { s with sp := s.sp + 1, y := v, p := pNZ s.p v } ∧
    exec .plp s = .next { s with sp := s.sp + 1, p := v ||| 0x20 }

/-- The seven flag instructions (R288 to R294): one bit of `P`, nothing else. -/
def Obligations.FlagInstructions : Prop :=
  EncodedBy .clc 0x18 ∧ EncodedBy .sec 0x38 ∧ EncodedBy .cli 0x58 ∧ EncodedBy .sei 0x78 ∧ EncodedBy .cld 0xD8 ∧
  EncodedBy .sed 0xF8 ∧ EncodedBy .clv 0xB8 ∧
  ∀ s : State,
    exec .clc s = .next { s with p := s.p &&& 0xFE } ∧ exec .sec s = .next { s with p := s.p ||| 0x01 } ∧
    exec .cli s = .next { s with p := s.p &&& 0xFB } ∧ exec .sei s = .next { s with p := s.p ||| 0x04 } ∧
    exec .cld s = .next { s with p := s.p &&& 0xF7 } ∧ exec .sed s = .next { s with p := s.p ||| 0x08 } ∧
    exec .clv s = .next { s with p := s.p &&& 0xBF }

/-- NOP and the 44 reserved opcodes (R113, R296, R297): their bytes are fetched, `PC` moves past them, nothing else. The
sizes of the reserved opcodes are the spec's own decision D2. -/
def Obligations.NoOperations : Prop :=
  EncodedBy .nop 0xEA ∧ (∀ s : State, exec .nop s = .next s) ∧
  ∀ (lo hi : Byte) (s : State), ∀ f ∈ reservedForms lo hi,
    encode f.1 = [f.2.1, lo, hi].take f.2.2 ∧ Config.size f.2.1 = f.2.2 ∧ exec f.1 s = .next s

/-- BRK (R300): the return address `PC0 + 2` (one past the next instruction's address) and `P | 0x30` on the stack, I
set, D cleared, B and the other flags kept, `PC` from 0xFFFE/0xFFFF. The whole of it is the spec's own decision D10. -/
def Obligations.BreakTakesTheTrap : Prop :=
  EncodedBy .brk 0x00 ∧ ∀ s : State,
    ∃ m, exec .brk s = .next { s with
        mem := m, sp := s.sp - 3, p := (s.p ||| 0x04) &&& 0xF7, pc := memWord s 0xFFFE 0xFFFF } ∧
      MemChanged s.mem
        [(stackCell s.sp, BitVec.ofNat 8 ((s.pc + 1).toNat / 256)),
         (stackCell (s.sp - 1), BitVec.ofNat 8 ((s.pc + 1).toNat % 256)), (stackCell (s.sp - 2), s.p ||| 0x30)] m

/-- RTI (R301): `P` with bit 5 forced, then `PC`, from the stack; no increment. It rests on the spec's own decisions D8
and D10. -/
def Obligations.ReturnFromInterrupt : Prop :=
  EncodedBy .rti 0x40 ∧ ∀ s : State,
    exec .rti s = .next { s with
      sp := s.sp + 3
      p := Memory.read s.mem (stackCell (s.sp + 1)) ||| 0x20
      pc := memWord s (stackCell (s.sp + 2)) (stackCell (s.sp + 3)) }

/-- A return undoes a BRK: from any state with the trap's stack, RTI goes to `PC0 + 2`, restores `SP`, and loads `P` as
stacked, bits 4 and 5 set (R300, R301, R327; the spec's own decisions D8 and D10). -/
def Obligations.BreakThenReturnResumes : Prop :=
  ∀ s : State, Memory.wf s.mem → ∃ t, exec .brk s = .next t ∧
    ∀ u : State, u.mem = t.mem → u.sp = t.sp →
      exec .rti u = .next { u with pc := s.pc + 1, sp := s.sp, p := s.p ||| 0x30 }

/-- WAI and STP (R303, R304): `ST` alone changes; from then on a step changes nothing and reports so, until `resume`. -/
def Obligations.WaitAndStop : Prop :=
  EncodedBy .wai 0xCB ∧ EncodedBy .stp 0xDB ∧ ∀ s : State,
    let w := { s with st := .waiting }
    let h := { s with st := .stopped }
    exec .wai s = .next w ∧ step w = .next w ∧ stepReport w = .waiting ∧ resume w = .next { s with st := .running } ∧
    exec .stp s = .next h ∧ step h = .next h ∧ stepReport h = .stopped ∧ resume h = .next { s with st := .running }

/-! ### Reset and the host -/

/-- `reset(subsystems)` (R420): each member, and only it, takes its reset values; RAM and ROM are kept. The CPU's are
any draws with bit 5 of `P` set; the devices' are the values of R41, R46 and R52, the spec's own decision D34 (log 13).
-/
def Obligations.ResetIsPerSubsystem : Prop :=
  ∀ (sel : Subsystems) (d : CpuDraws) (s : State),
    resetSubsystems sel d s = { s with
      a := if sel.cpu then d.a else s.a
      x := if sel.cpu then d.x else s.x
      y := if sel.cpu then d.y else s.y
      sp := if sel.cpu then d.sp else s.sp
      p := if sel.cpu then d.p ||| 0x20 else s.p
      pc := if sel.cpu then d.pc else s.pc
      st := if sel.cpu then .booting else s.st
      via := if sel.via then
          { ora := 0x00, orb := 0x00, ddra := 0x00, ddrb := 0x00, sr := 0x00, acr := 0x00, pcr := 0x00, ifr := 0x00,
            ier := 0x00, t1c := 0x0000, t1l := 0x0000, t2c := 0x0000, t2l := 0x0000 }
        else s.via
      uart := if sel.uart then
          { stat := 0x00, ctrl := 0x00, cmd := 0x00, txcnt := 0, rxcnt := 0, tdr := 0x00, tsr := 0x00, rdr := 0x00,
            rsr := 0x00 }
        else s.uart
      lcd := if sel.lcd then
          { ir := 0x00, dr := 0x00, ac := 0, bank := .dd, fId := true, fS := false, fD := false, fC := false,
            fB := false, fShift := false, fDl := false, fN := false, fF := false, fBusy := false, cursor := 0,
            shift := 0, ddram := Vector.replicate 80 0x20, cgram := Vector.replicate 64 0x00 }
        else s.lcd }

/-- `program` (R73, R426): byte k of the data goes to ROM index `(atOffset + k) mod 0x2000`, nothing else changes, and a
list longer than the ROM is refused. -/
def Obligations.ProgramWritesRom : Prop :=
  ∀ (data : List Byte) (off : Nat) (s : State),
    (0x2000 < data.length → program data off s = .refused .programTooLong) ∧
    (data.length ≤ 0x2000 → ∃ m, program data off s = .next { s with mem := m } ∧
      (Memory.wf s.mem → Memory.wf m ∧
        ∀ k, (h : k < data.length) → Memory.read m (0xE000 + (off + k) % 0x2000) = data[k]) ∧
      ∀ j, (∀ k, k < data.length → j ≠ 0xE000 + (off + k) % 0x2000) → Memory.read m j = Memory.read s.mem j)

/-! ### The devices -/

/-- UART reads (R374, R375): the status read forces bit 4 in what it returns and clears stored bits 7 to 5; the data
read clears stored bits 3 to 0; nothing else changes. -/
def Obligations.UartReadSideEffects : Prop :=
  ∀ u : Uart,
    u.read 1 = (u.stat ||| 0x10, { u with stat := u.stat &&& 0x1F }) ∧
    u.read 0 = (u.rdr, { u with stat := u.stat &&& 0xF0 }) ∧
    u.read 2 = (u.cmd, u) ∧ u.read 3 = (u.ctrl, u)

/-- UART writes (R376 to R378): a data write loads both transmit registers and the count; a status write is the soft
reset, its bits the spec's own decision D24; the others store. -/
def Obligations.UartWriteEffects : Prop :=
  ∀ (u : Uart) (v : Byte),
    u.write 0 v = { u with tdr := v, tsr := v, txcnt := 8 } ∧
    u.write 1 v = { u with stat := u.stat &&& 0xFB, cmd := u.cmd &&& 0xE0 } ∧
    u.write 2 v = { u with cmd := v } ∧ u.write 3 v = { u with ctrl := v }

/-- Eight bits received, least significant first, are the byte: it is in both receive registers, receive-full is set,
overrun is set when the last byte was unread, the count is 0 again, and nothing else changed (R381). -/
def Obligations.EightBitsReceivedAreTheByte : Prop :=
  ∀ (s : State) (v : Byte), s.uart.rxcnt = 0 →
    (bitsOf v).foldl (fun t b => receiveBit b t) s = { s with uart := { s.uart with
      rdr := v
      rsr := v
      stat := (if s.uart.stat.getLsbD 3 then s.uart.stat ||| 0x04 else s.uart.stat) ||| 0x08 } }

/-- A byte written to the data register leaves the UART least significant bit first in eight calls, after which both the
count and the shift register are 0, the data register keeps the byte, and a ninth call is refused (R378, R382; the
refusal and the zero shifted in are the spec's own decision D26). -/
def Obligations.ByteWrittenIsTransmitted : Prop :=
  ∀ (s : State) (v : Byte),
    let send := fun (r : List Bool × State) (_ : Nat) =>
      match transmitBit r.2 with
      | .next q => (r.1 ++ [q.1], q.2)
      | _ => r
    let done := (List.range 8).foldl send ([], uartWrite 0 v s)
    done = (bitsOf v, { s with uart := { s.uart with tdr := v, tsr := 0, txcnt := 0 } }) ∧
    transmitBit done.2 = .refused .transmitCountZero

/-- The VIA's register file (R352, R353, R355): a write stores in the register, or the half of a 16-bit register, of its
index, and changes nothing else; what is written at an index from 2 to 14 reads back there, whatever the pins, and every
other index from 2 to 14 reads as before. The index map and the plain storage are the spec's own decisions D18, D19 and
D40. -/
def Obligations.ViaRegistersAreStorage : Prop :=
  ∀ (d : Via) (v : Byte),
    let lowOf := fun w : Word => BitVec.ofNat 16 (w.toNat / 256 * 256 + v.toNat)
    let highOf := fun w : Word => BitVec.ofNat 16 (w.toNat % 256 + 256 * v.toNat)
    d.write 0 v = { d with orb := v } ∧ d.write 1 v = { d with ora := v } ∧
    d.write 2 v = { d with ddrb := v } ∧ d.write 3 v = { d with ddra := v } ∧
    d.write 4 v = { d with t1c := lowOf d.t1c } ∧ d.write 5 v = { d with t1c := highOf d.t1c } ∧
    d.write 6 v = { d with t1l := lowOf d.t1l } ∧ d.write 7 v = { d with t1l := highOf d.t1l } ∧
    d.write 8 v = { d with t2c := lowOf d.t2c } ∧ d.write 9 v = { d with t2c := highOf d.t2c } ∧
    d.write 10 v = { d with sr := v } ∧ d.write 11 v = { d with acr := v } ∧ d.write 12 v = { d with pcr := v } ∧
    d.write 13 v = { d with ifr := v } ∧ d.write 14 v = { d with ier := v } ∧ d.write 15 v = { d with ora := v } ∧
    ∀ (i j : Nat) (pinA pinB : Byte), 2 ≤ i → i ≤ 14 → 2 ≤ j → j ≤ 14 →
      (d.write (BitVec.ofNat 4 i) v).read (BitVec.ofNat 4 i) pinA pinB = v ∧
      (i ≠ j →
        (d.write (BitVec.ofNat 4 i) v).read (BitVec.ofNat 4 j) pinA pinB = d.read (BitVec.ofNat 4 j) pinA pinB) ∧
      (d.write (BitVec.ofNat 4 i) v).ora = d.ora ∧ (d.write (BitVec.ofNat 4 i) v).orb = d.orb ∧
      (d.write (BitVec.ofNat 4 i) v).t2l = d.t2l

/-- A port reads, bit by bit, the output latch where the direction bit is 1 and the pin where it is 0 (R354), at index 0
for port B and at 1 and 15 for port A (R352). The indices are the spec's own decisions D18 and D40 (log 12). -/
def Obligations.PortReadIsPerBit : Prop :=
  ∀ (d : Via) (pinA pinB : Byte) (k : Nat), k < 8 →
    (d.read 0 pinA pinB).getLsbD k = (if d.ddrb.getLsbD k then d.orb.getLsbD k else pinB.getLsbD k) ∧
    (d.read 1 pinA pinB).getLsbD k = (if d.ddra.getLsbD k then d.ora.getLsbD k else pinA.getLsbD k) ∧
    (d.read 15 pinA pinB).getLsbD k = (if d.ddra.getLsbD k then d.ora.getLsbD k else pinA.getLsbD k)

/-- The bit-subset law (R351), at every width; the ascending order is the spec's own choice. -/
def Obligations.UnpackOfPackIsMasking : Prop := ∀ (n : Nat) (v m : BitVec n), unpack (pack v m) m = v &&& m

/-- The LCD's commands (R392 to R400): every instruction byte, by its highest set bit, has the effect its rule gives and
no other; `IR` takes the byte. Patterns, wraps and the set addresses rest on the spec's own decisions D28, D29, D30, D32
and D33. -/
def Obligations.LcdCommandEffects : Prop :=
  ∀ (l : Lcd) (d : Byte),
    let k := { l with ir := d }
    let dir := d.getLsbD 2
    let size := if l.bank = .cg then 64 else 80
    let acUp := BitVec.ofNat 7 ((l.ac.toNat % size + 1) % size)
    let acDown := BitVec.ofNat 7 ((l.ac.toNat % size + size - 1) % size)
    (d.toNat = 0 → l.writeInstruction d = k) ∧
    (d.toNat = 1 → l.writeInstruction d = { k with
      ddram := Vector.replicate 80 0x20, ac := 0, bank := .dd, fId := true, cursor := 0, shift := 0 }) ∧
    (2 ≤ d.toNat → d.toNat ≤ 3 → l.writeInstruction d = { k with ac := 0, bank := .dd, cursor := 0, shift := 0 }) ∧
    (4 ≤ d.toNat → d.toNat ≤ 7 → l.writeInstruction d = { k with fId := d.getLsbD 1, fS := d.getLsbD 0 }) ∧
    (8 ≤ d.toNat → d.toNat ≤ 15 → l.writeInstruction d = { k with
      fD := d.getLsbD 2, fC := d.getLsbD 1, fB := d.getLsbD 0 }) ∧
    (16 ≤ d.toNat → d.toNat ≤ 23 → l.writeInstruction d = { k with
      cursor := if dir then l.cursor + 1 else l.cursor - 1, ac := if dir then acUp else acDown }) ∧
    (24 ≤ d.toNat → d.toNat ≤ 31 → l.writeInstruction d = { k with
      shift := if dir then l.shift - 1 else l.shift + 1 }) ∧
    (32 ≤ d.toNat → d.toNat ≤ 63 → l.writeInstruction d = { k with
      fDl := d.getLsbD 4, fN := d.getLsbD 3, fF := d.getLsbD 2 }) ∧
    (64 ≤ d.toNat → d.toNat ≤ 127 → l.writeInstruction d = { k with
      ac := BitVec.ofNat 7 (d.toNat - 64), bank := .cg }) ∧
    (128 ≤ d.toNat → l.writeInstruction d = { k with
      ac := BitVec.ofNat 7 (d.toNat - 128), bank := .dd, cursor := Fin.ofNat 80 (d.toNat - 128) })

/-- The LCD's transfers (R401 to R404): the instruction-register read is `128 * F_BUSY + AC` and changes nothing; the
cell is at `AC` modulo the bank's size; a write stores it, a read returns it; the cursor steps in the display-data
bank, the shift on a write with `F_S`; then `AC` steps by `F_ID` and stays below the bank's size. The wraps and the
busy flag rest on the spec's own decisions D29, D30 and D31. -/
def Obligations.LcdTransfers : Prop :=
  ∀ (l : Lcd) (d : Byte),
    (∃ r : Byte, l.execute false true d = (some r, l) ∧ r.toNat = 128 * (if l.fBusy then 1 else 0) + l.ac.toNat) ∧
    (l.bank = .dd →
      let ac := BitVec.ofNat 7 (if l.fId then (l.ac.toNat % 80 + 1) % 80 else (l.ac.toNat % 80 + 79) % 80)
      let cursor := if l.fId then l.cursor + 1 else l.cursor - 1
      l.writeData d = { l with
        dr := d, ac := ac, cursor := cursor
        ddram := l.ddram.set (l.ac.toNat % 80) d (Nat.mod_lt _ (by decide))
        shift := if l.fS then (if l.fId then l.shift + 1 else l.shift - 1) else l.shift } ∧
      l.readData = (l.ddram[l.ac.toNat % 80]'(Nat.mod_lt _ (by decide)), { l with
        dr := l.ddram[l.ac.toNat % 80]'(Nat.mod_lt _ (by decide)), ac := ac, cursor := cursor }) ∧
      (l.writeData d).ac.toNat < 80 ∧ l.readData.2.ac.toNat < 80) ∧
    (l.bank = .cg →
      let ac := BitVec.ofNat 7 (if l.fId then (l.ac.toNat % 64 + 1) % 64 else (l.ac.toNat % 64 + 63) % 64)
      l.writeData d = { l with
        dr := d, ac := ac, cgram := l.cgram.set (l.ac.toNat % 64) d (Nat.mod_lt _ (by decide)) } ∧
      l.readData = (l.cgram[l.ac.toNat % 64]'(Nat.mod_lt _ (by decide)), { l with
        dr := l.cgram[l.ac.toNat % 64]'(Nat.mod_lt _ (by decide)), ac := ac }) ∧
      (l.writeData d).ac.toNat < 64 ∧ l.readData.2.ac.toNat < 64)

/-- The coupling (R410): gate at bit 7 of port A, read/write at bit 6, register select at bit 5, data on port B; only
the LCD changes, and only while the gate bit is 1; an LCD read puts its byte on port B's pins. A read of the VIA window
(R411) couples first and reads the VIA with those pins; a write (R412) writes the VIA first and couples with what it
wrote. The bits and both orders are the spec's own decision D20. -/
def Obligations.LcdCouplingGate : Prop :=
  ∀ (pinA pinB : Byte) (s : State),
    let pa := (s.via.ora &&& s.via.ddra) ||| (pinA &&& ~~~s.via.ddra)
    let pb := (s.via.orb &&& s.via.ddrb) ||| (pinB &&& ~~~s.via.ddrb)
    (pa.getLsbD 7 = false → lcdCouple pinA pinB s = (pinB, s)) ∧
    (pa.getLsbD 7 = true → pa.getLsbD 6 = false → pa.getLsbD 5 = false →
      lcdCouple pinA pinB s = (pinB, { s with lcd := s.lcd.writeInstruction pb })) ∧
    (pa.getLsbD 7 = true → pa.getLsbD 6 = false → pa.getLsbD 5 = true →
      lcdCouple pinA pinB s = (pinB, { s with lcd := s.lcd.writeData pb })) ∧
    (pa.getLsbD 7 = true → pa.getLsbD 6 = true → pa.getLsbD 5 = false →
      lcdCouple pinA pinB s = (s.lcd.readInstruction, s)) ∧
    (pa.getLsbD 7 = true → pa.getLsbD 6 = true → pa.getLsbD 5 = true →
      lcdCouple pinA pinB s = (s.lcd.readData.1, { s with lcd := s.lcd.readData.2 })) ∧
    ∀ (i : BitVec 4) (v : Byte),
      viaLcdRead i pinA pinB s =
        (s.via.read i pinA (lcdCouple pinA pinB s).1, { s with lcd := (lcdCouple pinA pinB s).2.lcd }) ∧
      viaLcdWrite i v pinA pinB s = (lcdCouple pinA pinB { s with via := s.via.write i v }).2

/-- While the gate is latch-driven low, no access through the VIA window reaches the LCD, whatever the pins: no read,
which is then the VIA's alone with the pins as drawn, and no write that leaves the gate so. Such a write is the VIA's
alone; at an index of port A's latch it has bit 7 of the byte 0, at the index of port A's directions 1, and at every
other index it cannot move the gate (R413 (a), the spec's own derivation; the gate's bit and the indices are its
decisions D20, D18 and D40). -/
def Obligations.GateLowShieldsLcd : Prop :=
  ∀ (a : Word) (v : Byte) (s : State), 0x6000 ≤ a.toNat → a.toNat ≤ 0x7FFF →
    s.via.ddra.getLsbD 7 = true → s.via.ora.getLsbD 7 = false →
    memRead a s =
      (s.via.read (BitVec.ofNat 4 (a.toNat % 16)) (Config.pinAIn s.pinDraws) (Config.pinBIn s.pinDraws),
        { s with pinDraws := s.pinDraws + 1 }) ∧
    ((a.toNat % 16 = 1 ∨ a.toNat % 16 = 15 → v.getLsbD 7 = false) → (a.toNat % 16 = 3 → v.getLsbD 7 = true) →
      memWrite a v s =
        { s with via := s.via.write (BitVec.ofNat 4 (a.toNat % 16)) v, pinDraws := s.pinDraws + 1 })
end

