-- ==== Sys2Proof/Laws/Memory.lean ====
section
/-! SUPPORT. The laws of memory: a byte written reads back, every other byte is kept, every operation keeps the canonical
form, and two memories in canonical form that read alike are equal. -/

namespace Sys2Proof.Machine

@[simp] theorem Memory.read_nil (k : Nat) : Memory.read [] k = Config.unwrittenByte := rfl

theorem Memory.wf_nil : Memory.wf [] := ⟨List.Pairwise.nil, by simp⟩

theorem Memory.wf_cons {c : Host.Cell} {m : Memory} :
    Memory.wf (c :: m) ↔
      (∀ d ∈ m, c.1 < d.1) ∧ ((isRam c.1 ∨ isRom c.1) ∧ c.2 ≠ Config.unwrittenByte) ∧ Memory.wf m := by
  simp only [Memory.wf, List.pairwise_cons, List.forall_mem_cons]
  tauto

/-- An address below every listed one reads as unwritten. -/
theorem Memory.read_below {m : Memory} {k : Nat} (h : ∀ d ∈ m, k < d.1) : Memory.read m k = Config.unwrittenByte := by
  induction m with
  | nil => rfl
  | cons c m ih =>
    have hc : ¬ c.1 = k := by have := h c (by simp); omega
    simp only [Memory.read, hc, if_false]
    exact ih fun d hd => h d (by simp [hd])

theorem Memory.read_write_ne (m : Memory) {a k : Nat} (v : Byte) (h : k ≠ a) :
    Memory.read (Memory.write m a v) k = Memory.read m k := by
  have h' : ¬ a = k := fun e => h e.symm
  induction m with
  | nil => by_cases hv : v = Config.unwrittenByte <;> simp [Memory.write, Memory.read, hv, h']
  | cons c m ih =>
    obtain ⟨b, w⟩ := c
    by_cases hlt : b < a
    · simp only [Memory.write, hlt, if_true, Memory.read, ih]
    · simp only [Memory.write, hlt, if_false]
      by_cases hb : b = a
      · subst hb
        by_cases hv : v = Config.unwrittenByte <;> simp [Memory.read, hv, h']
      · by_cases hv : v = Config.unwrittenByte <;> simp [Memory.read, hv, hb, h']

theorem Memory.read_write_self {m : Memory} (a : Nat) (v : Byte) (h : Memory.wf m) :
    Memory.read (Memory.write m a v) a = v := by
  induction m with
  | nil => by_cases hv : v = Config.unwrittenByte <;> simp [Memory.write, Memory.read, hv]
  | cons c m ih =>
    obtain ⟨b, w⟩ := c
    obtain ⟨hlt, -, hm⟩ := Memory.wf_cons.1 h
    by_cases hba : b < a
    · have hne : ¬ b = a := by omega
      simp only [Memory.write, hba, if_true, Memory.read, hne, if_false]
      exact ih hm
    · simp only [Memory.write, hba, if_false]
      by_cases hb : b = a
      · subst hb
        by_cases hv : v = Config.unwrittenByte
        · simpa [hv] using Memory.read_below hlt
        · simp [hv, Memory.read]
      · by_cases hv : v = Config.unwrittenByte
        · simp only [hb, hv, if_true, if_false, Memory.read]
          exact Memory.read_below fun d hd => by have := hlt d hd; simp only at this; omega
        · simp [hv, Memory.read]

/-- Every listed address after a write was listed before or is the one written. -/
theorem Memory.mem_write {m : Memory} {a : Nat} {v : Byte} {d : Host.Cell} (h : d ∈ Memory.write m a v) :
    d ∈ m ∨ d = (a, v) := by
  induction m with
  | nil => by_cases hv : v = Config.unwrittenByte <;> simp_all [Memory.write]
  | cons c m ih =>
    obtain ⟨b, w⟩ := c
    by_cases hba : b < a
    · simp only [Memory.write, hba, if_true, List.mem_cons] at h ⊢
      rcases h with h | h
      · exact .inl (.inl h)
      · exact (ih h).imp_left .inr
    · simp only [Memory.write, hba, if_false] at h
      by_cases hb : b = a <;> by_cases hv : v = Config.unwrittenByte <;> simp_all <;> tauto

theorem Memory.write_wf {m : Memory} {a : Nat} {v : Byte} (h : Memory.wf m) (ha : isRam a ∨ isRom a) :
    Memory.wf (Memory.write m a v) := by
  induction m with
  | nil =>
    by_cases hv : v = Config.unwrittenByte
    · simpa [Memory.write, hv] using Memory.wf_nil
    · simp only [Memory.write, hv, if_false]
      exact Memory.wf_cons.2 ⟨by simp, ⟨ha, hv⟩, Memory.wf_nil⟩
  | cons c m ih =>
    obtain ⟨b, w⟩ := c
    obtain ⟨hlt, hc, hm⟩ := Memory.wf_cons.1 h
    by_cases hba : b < a
    · simp only [Memory.write, hba, if_true]
      refine Memory.wf_cons.2 ⟨fun d hd => ?_, hc, ih hm⟩
      rcases Memory.mem_write hd with hd | rfl
      · exact hlt d hd
      · exact hba
    · simp only [Memory.write, hba, if_false]
      have hrest : Memory.wf (if b = a then m else (b, w) :: m) := by split <;> assumption
      by_cases hv : v = Config.unwrittenByte
      · simpa only [hv, if_true] using hrest
      · simp only [hv, if_false]
        refine Memory.wf_cons.2 ⟨fun d hd => ?_, ⟨ha, hv⟩, hrest⟩
        by_cases hb : b = a
        · rw [if_pos hb] at hd
          have := hlt d hd
          simp only at this ⊢; omega
        · rw [if_neg hb, List.mem_cons] at hd
          rcases hd with rfl | hd
          · simp only; omega
          · have := hlt d hd
            simp only at this ⊢; omega

/-- Memories in canonical form that read alike everywhere are equal data. -/
theorem Memory.eq_of_read_eq {m m' : Memory} (h : Memory.wf m) (h' : Memory.wf m')
    (hr : ∀ k, Memory.read m k = Memory.read m' k) : m = m' := by
  induction m generalizing m' with
  | nil =>
    cases m' with
    | nil => rfl
    | cons d m' =>
      have := (Memory.wf_cons.1 h').2.1.2
      have hk := hr d.1
      simp [Memory.read] at hk
      exact absurd hk.symm this
  | cons c m ih =>
    obtain ⟨hlt, hc, hm⟩ := Memory.wf_cons.1 h
    cases m' with
    | nil =>
      have hk := hr c.1
      simp [Memory.read] at hk
      exact absurd hk hc.2
    | cons d m' =>
      obtain ⟨hlt', hd, hm'⟩ := Memory.wf_cons.1 h'
      have hcd : c.1 = d.1 := by
        rcases Nat.lt_trichotomy c.1 d.1 with hl | he | hl
        · exfalso
          have hk := hr c.1
          rw [Memory.read_below (m := d :: m')
            (by simpa using ⟨hl, fun a b hab => Nat.lt_trans hl (hlt' _ hab)⟩)] at hk
          simp [Memory.read] at hk
          exact hc.2 hk
        · exact he
        · exfalso
          have hk := hr d.1
          rw [Memory.read_below (m := c :: m)
            (by simpa using ⟨hl, fun a b hab => Nat.lt_trans hl (hlt _ hab)⟩)] at hk
          simp [Memory.read] at hk
          exact hd.2 hk.symm
      obtain ⟨k, w⟩ := c
      obtain ⟨k', w'⟩ := d
      obtain rfl : k = k' := hcd
      have hw : w = w' := by simpa [Memory.read] using hr k
      subst hw
      congr 1
      refine ih hm hm' fun j => ?_
      by_cases hj : k = j
      · subst hj
        rw [Memory.read_below hlt, Memory.read_below hlt']
      · simpa [Memory.read, hj] using hr j

/-- One byte written, in the vocabulary of the statements. -/
theorem MemChanged.of_write (m : Memory) {a : Nat} (v : Byte) (ha : isRam a ∨ isRom a) :
    MemChanged m [(a, v)] (Memory.write m a v) := by
  refine ⟨fun h => ⟨Memory.write_wf h ha, by simpa using Memory.read_write_self a v h⟩, fun k hk => ?_⟩
  exact Memory.read_write_ne m v (by simpa using hk)

/-- Two writes one after the other, at cells the second does not write again. -/
theorem MemChanged.append {m m' m'' : Memory} {cs ds : List (Nat × Byte)} (h : MemChanged m cs m')
    (h' : MemChanged m' ds m'') (hne : ∀ c ∈ cs, c.1 ∉ ds.map Prod.fst) : MemChanged m (cs ++ ds) m'' := by
  refine ⟨fun hm => ?_, fun k hk => ?_⟩
  · obtain ⟨hm', hcs⟩ := h.1 hm
    obtain ⟨hm'', hds⟩ := h'.1 hm'
    refine ⟨hm'', fun c hc => ?_⟩
    rcases List.mem_append.1 hc with hc | hc
    · rw [h'.2 _ (hne c hc), hcs c hc]
    · exact hds c hc
  · rw [List.map_append, List.mem_append, not_or] at hk
    rw [h'.2 _ hk.2, h.2 _ hk.1]

theorem MemChanged.refl (m : Memory) : MemChanged m [] m := ⟨fun h => ⟨h, by simp⟩, fun _ _ => rfl⟩

/-- The host's placing of bytes keeps the canonical form where every address is a cell of `RAM` or `ROM` (R73). -/
theorem programFrom_wf {data : List Byte} {i : Nat} {m : Memory} (h : Memory.wf m) :
    Memory.wf (programFrom data i m) := by
  induction data generalizing i m with
  | nil => exact h
  | cons b bs ih => exact ih (Memory.write_wf h (.inr (by simp only [isRom, romAddr]; omega)))

/-- The host's placing of bytes changes no cell outside those it names (R73). -/
theorem programFrom_read_ne {data : List Byte} {i j : Nat} {m : Memory}
    (h : ∀ k, k < data.length → j ≠ 0xE000 + (i + k) % 0x2000) :
    Memory.read (programFrom data i m) j = Memory.read m j := by
  induction data generalizing i m with
  | nil => rfl
  | cons b bs ih =>
    rw [programFrom, ih]
    · exact Memory.read_write_ne _ _ (h 0 (by simp))
    · intro k hk
      have := h (k + 1) (by simpa using hk)
      rwa [show i + (k + 1) = i + 1 + k by omega] at this

end Sys2Proof.Machine
end

