-- ==== Sys2Proof/Laws/Bus.lean ====
section
/-! SUPPORT. What one bus access can do: the region of an address, what a read gives and leaves, what a write leaves. -/

namespace Sys2Proof.Machine

theorem region_ram {a : Word} (h : a.toNat ≤ 0x3FFF) : region a = .ram := by simp [region, h]

theorem region_uart {a : Word} (h : 0x4000 ≤ a.toNat) (h' : a.toNat ≤ 0x5FFF) : region a = .uart := by
  have h1 : ¬ a.toNat ≤ 0x3FFF := by omega
  simp [region, h1, h']

theorem region_viaLcd {a : Word} (h : 0x6000 ≤ a.toNat) (h' : a.toNat ≤ 0x7FFF) : region a = .viaLcd := by
  have h1 : ¬ a.toNat ≤ 0x3FFF := by omega
  have h2 : ¬ a.toNat ≤ 0x5FFF := by omega
  simp [region, h1, h2, h']

theorem region_unmapped {a : Word} (h : 0x8000 ≤ a.toNat) (h' : a.toNat ≤ 0xDFFF) : region a = .unmapped := by
  have h1 : ¬ a.toNat ≤ 0x3FFF := by omega
  have h2 : ¬ a.toNat ≤ 0x5FFF := by omega
  have h3 : ¬ a.toNat ≤ 0x7FFF := by omega
  simp [region, h1, h2, h3, h']

theorem region_rom {a : Word} (h : 0xE000 ≤ a.toNat) : region a = .rom := by
  have h1 : ¬ a.toNat ≤ 0x3FFF := by omega
  have h2 : ¬ a.toNat ≤ 0x5FFF := by omega
  have h3 : ¬ a.toNat ≤ 0x7FFF := by omega
  have h4 : ¬ a.toNat ≤ 0xDFFF := by omega
  simp [region, h1, h2, h3, h4]

/-- The five ranges cover every address (R64). -/
theorem region_cases (a : Word) :
    a.toNat ≤ 0x3FFF ∨ (0x4000 ≤ a.toNat ∧ a.toNat ≤ 0x5FFF) ∨ (0x6000 ≤ a.toNat ∧ a.toNat ≤ 0x7FFF) ∨
      (0x8000 ≤ a.toNat ∧ a.toNat ≤ 0xDFFF) ∨ 0xE000 ≤ a.toNat := by omega

theorem uartIndex_eq (a : Word) : uartIndex a = BitVec.ofNat 2 (a.toNat % 4) := by
  apply BitVec.eq_of_toNat_eq; simp [uartIndex]

theorem viaIndex_eq (a : Word) : viaIndex a = BitVec.ofNat 4 (a.toNat % 16) := by
  apply BitVec.eq_of_toNat_eq; simp [viaIndex]

theorem ramAddr_eq {a : Word} (h : a.toNat ≤ 0x3FFF) : ramAddr a.toNat = a.toNat := by
  simp only [ramAddr]; omega

theorem romAddr_eq {a : Word} (h : 0xE000 ≤ a.toNat) : romAddr (a.toNat - 0xE000) = a.toNat := by
  have := a.isLt
  simp only [romAddr]; omega

/-- A read outside the device windows: the byte, and nothing changes (R62, R77). -/
theorem memRead_plain {a : Word} (s : State) (h : ¬ inDeviceWindow a) : memRead a s = (plainByte s a, s) := by
  rcases region_cases a with hr | ⟨h1, h2⟩ | ⟨h1, h2⟩ | ⟨h1, h2⟩ | hr
  · have hn : ¬ (0x8000 ≤ a.toNat ∧ a.toNat ≤ 0xDFFF) := by omega
    simp only [memRead, drawPins, busRead, region_ram hr, reduceCtorEq, if_false, ramAddr_eq hr, plainByte, hn]
  · exact absurd ⟨h1, by omega⟩ h
  · exact absurd ⟨by omega, h2⟩ h
  · simp only [memRead, drawPins, busRead, region_unmapped h1 h2, reduceCtorEq, if_false, plainByte, h1, h2,
      and_self, if_true, Config.unmappedRead]
  · have hn : ¬ (0x8000 ≤ a.toNat ∧ a.toNat ≤ 0xDFFF) := by omega
    simp only [memRead, drawPins, busRead, region_rom hr, reduceCtorEq, if_false, romAddr_eq hr, plainByte, hn]

/-- A read of the UART window (R62, R67). -/
theorem memRead_uart {a : Word} (s : State) (h : 0x4000 ≤ a.toNat) (h' : a.toNat ≤ 0x5FFF) :
    memRead a s = ((s.uart.read (BitVec.ofNat 2 (a.toNat % 4))).1,
      { s with uart := (s.uart.read (BitVec.ofNat 2 (a.toNat % 4))).2 }) := by
  simp only [memRead, drawPins, busRead, region_uart h h', reduceCtorEq, if_false, uartIndex_eq]

/-- A read of the VIA window takes a pin draw (R62, R68, R356). -/
theorem memRead_viaLcd {a : Word} (s : State) (h : 0x6000 ≤ a.toNat) (h' : a.toNat ≤ 0x7FFF) :
    memRead a s = viaLcdRead (BitVec.ofNat 4 (a.toNat % 16)) (Config.pinAIn s.pinDraws) (Config.pinBIn s.pinDraws)
      { s with pinDraws := s.pinDraws + 1 } := by
  simp only [memRead, drawPins, busRead, region_viaLcd h h', if_true, viaIndex_eq]

/-- The coupling touches the LCD alone (R410). -/
theorem lcdCouple_eq (pinA pinB : Byte) (s : State) :
    (lcdCouple pinA pinB s).2 = { s with lcd := (lcdCouple pinA pinB s).2.lcd } := by
  simp only [lcdCouple]; split <;> rfl

/-- Everything a bus read can do: a value, and changes of the UART, the LCD and the pin draws alone. -/
theorem memRead_eq (a : Word) (s : State) : memRead a s = (byteAt a s, afterRead a s) := by
  refine Prod.ext rfl ?_
  by_cases hd : inDeviceWindow a
  · rcases Nat.lt_or_ge a.toNat 0x6000 with hl | hl
    · simp only [afterRead, memRead_uart s hd.1 (by omega)]
    · simp only [afterRead, memRead_viaLcd s hl hd.2, viaLcdRead]
      rw [lcdCouple_eq]
  · simp only [afterRead, memRead_plain s hd]

theorem byteAt_plain {a : Word} (s : State) (h : ¬ inDeviceWindow a) : byteAt a s = plainByte s a := by
  rw [byteAt, memRead_plain s h]

theorem afterRead_plain {a : Word} (s : State) (h : ¬ inDeviceWindow a) : afterRead a s = s := by
  simp only [afterRead, memRead_plain s h]

@[simp] theorem afterRead_a (a : Word) (s : State) : (afterRead a s).a = s.a := rfl
@[simp] theorem afterRead_x (a : Word) (s : State) : (afterRead a s).x = s.x := rfl
@[simp] theorem afterRead_y (a : Word) (s : State) : (afterRead a s).y = s.y := rfl
@[simp] theorem afterRead_sp (a : Word) (s : State) : (afterRead a s).sp = s.sp := rfl
@[simp] theorem afterRead_p (a : Word) (s : State) : (afterRead a s).p = s.p := rfl
@[simp] theorem afterRead_pc (a : Word) (s : State) : (afterRead a s).pc = s.pc := rfl
@[simp] theorem afterRead_st (a : Word) (s : State) : (afterRead a s).st = s.st := rfl
@[simp] theorem afterRead_mem (a : Word) (s : State) : (afterRead a s).mem = s.mem := rfl
@[simp] theorem afterRead_via (a : Word) (s : State) : (afterRead a s).via = s.via := rfl

/-- A write to `RAM` (R63). -/
theorem memWrite_ram {a : Word} (v : Byte) (s : State) (h : a.toNat ≤ 0x3FFF) :
    memWrite a v s = { s with mem := Memory.write s.mem a.toNat v } := by
  simp only [memWrite, drawPins, busWrite, region_ram h, reduceCtorEq, if_false, ramAddr_eq h]

theorem memWrite_uart {a : Word} (v : Byte) (s : State) (h : 0x4000 ≤ a.toNat) (h' : a.toNat ≤ 0x5FFF) :
    memWrite a v s = { s with uart := s.uart.write (BitVec.ofNat 2 (a.toNat % 4)) v } := by
  simp only [memWrite, drawPins, busWrite, region_uart h h', reduceCtorEq, if_false, uartIndex_eq]

theorem memWrite_viaLcd {a : Word} (v : Byte) (s : State) (h : 0x6000 ≤ a.toNat) (h' : a.toNat ≤ 0x7FFF) :
    memWrite a v s = { viaLcdWrite (BitVec.ofNat 4 (a.toNat % 16)) v (Config.pinAIn s.pinDraws)
      (Config.pinBIn s.pinDraws) s with pinDraws := s.pinDraws + 1 } := by
  simp only [memWrite, drawPins, busWrite, region_viaLcd h h', if_true, viaIndex_eq, viaLcdWrite, lcdCouple]
  split <;> rfl

/-- A write to unmapped space or to `ROM` is discarded (R63, R69, R70). -/
theorem memWrite_discarded {a : Word} (v : Byte) (s : State) (h : 0x8000 ≤ a.toNat) : memWrite a v s = s := by
  rcases Nat.lt_or_ge a.toNat 0xE000 with hl | hl
  · simp only [memWrite, drawPins, busWrite, region_unmapped h (by omega), reduceCtorEq, if_false]
  · simp only [memWrite, drawPins, busWrite, region_rom hl, reduceCtorEq, if_false, Config.romBusWritable,
      Bool.false_eq_true]

theorem viaLcdWrite_eq (i : BitVec 4) (v pinA pinB : Byte) (s : State) :
    viaLcdWrite i v pinA pinB s =
      { s with via := s.via.write i v, lcd := (viaLcdWrite i v pinA pinB s).lcd } := by
  rw [viaLcdWrite, lcdCouple_eq]

/-- Everything a bus write can do (R63), in the vocabulary of the statements. -/
theorem wroteByte_memWrite (a : Word) (v : Byte) (s : State) : WroteByte a v s (memWrite a v s) := by
  rcases region_cases a with hr | ⟨h1, h2⟩ | ⟨h1, h2⟩ | h
  · rw [memWrite_ram v s hr]
    exact ⟨rfl, fun k hk => Memory.read_write_ne s.mem v hk,
      fun _ => ⟨rfl, MemChanged.of_write s.mem v (.inl (by simp only [isRam]; omega))⟩,
      fun h => absurd h (by omega), fun h => absurd h (by omega), fun h => absurd h (by omega)⟩
  · rw [memWrite_uart v s h1 h2]
    exact ⟨rfl, fun _ _ => rfl, fun h => absurd h (by omega), fun _ _ => rfl, fun h => absurd h (by omega),
      fun h => absurd h (by omega)⟩
  · rw [memWrite_viaLcd v s h1 h2]
    refine ⟨?_, fun k _ => ?_, fun h => absurd h (by omega), fun _ h => absurd h (by omega), fun _ _ => rfl,
      fun h => absurd h (by omega)⟩
    · rw [viaLcdWrite_eq]
    · rw [viaLcdWrite_eq]
  · have h8 : 0x8000 ≤ a.toNat := by omega
    rw [memWrite_discarded v s h8]
    exact ⟨rfl, fun _ _ => rfl, fun h => absurd h (by omega), fun _ h => absurd h (by omega),
      fun _ h => absurd h (by omega), fun _ => rfl⟩

/-- A bus write leaves every CPU register alone. -/
theorem memWrite_eq (a : Word) (v : Byte) (s : State) :
    memWrite a v s =
      { s with
        mem := (memWrite a v s).mem
        via := (memWrite a v s).via
        uart := (memWrite a v s).uart
        lcd := (memWrite a v s).lcd
        pinDraws := (memWrite a v s).pinDraws } :=
  (wroteByte_memWrite a v s).1

@[simp] theorem memWrite_a (a : Word) (v : Byte) (s : State) : (memWrite a v s).a = s.a := by rw [memWrite_eq]
@[simp] theorem memWrite_x (a : Word) (v : Byte) (s : State) : (memWrite a v s).x = s.x := by rw [memWrite_eq]
@[simp] theorem memWrite_y (a : Word) (v : Byte) (s : State) : (memWrite a v s).y = s.y := by rw [memWrite_eq]
@[simp] theorem memWrite_sp (a : Word) (v : Byte) (s : State) : (memWrite a v s).sp = s.sp := by rw [memWrite_eq]
@[simp] theorem memWrite_p (a : Word) (v : Byte) (s : State) : (memWrite a v s).p = s.p := by rw [memWrite_eq]
@[simp] theorem memWrite_pc (a : Word) (v : Byte) (s : State) : (memWrite a v s).pc = s.pc := by rw [memWrite_eq]
@[simp] theorem memWrite_st (a : Word) (v : Byte) (s : State) : (memWrite a v s).st = s.st := by rw [memWrite_eq]

/-- The canonical form is kept by every bus write. -/
theorem memWrite_wf (a : Word) (v : Byte) (s : State) (h : Memory.wf s.mem) : Memory.wf (memWrite a v s).mem := by
  rcases region_cases a with hr | ⟨h1, h2⟩ | ⟨h1, h2⟩ | hr
  · rw [memWrite_ram v s hr]
    exact Memory.write_wf h (.inl (by simp only [isRam]; omega))
  · rw [memWrite_uart v s h1 h2]; exact h
  · rw [memWrite_viaLcd v s h1 h2, viaLcdWrite_eq]; exact h
  · rw [memWrite_discarded v s (by omega)]; exact h

end Sys2Proof.Machine
end

