-- ==== Sys2Proof/Laws/State.lean ====
section
/-! SUPPORT. Small lemmas about the state: what each flag operation leaves in each field, and the bits of `P`. -/

namespace Sys2Proof.Machine


@[simp] theorem State.setC_a (s : State) (b : Bool) : (s.setC b).a = s.a := rfl
@[simp] theorem State.setC_x (s : State) (b : Bool) : (s.setC b).x = s.x := rfl
@[simp] theorem State.setC_y (s : State) (b : Bool) : (s.setC b).y = s.y := rfl
@[simp] theorem State.setC_sp (s : State) (b : Bool) : (s.setC b).sp = s.sp := rfl
@[simp] theorem State.setC_p (s : State) (b : Bool) : (s.setC b).p = withBit s.p 0 b := rfl
@[simp] theorem State.setC_pc (s : State) (b : Bool) : (s.setC b).pc = s.pc := rfl
@[simp] theorem State.setC_st (s : State) (b : Bool) : (s.setC b).st = s.st := rfl
@[simp] theorem State.setC_mem (s : State) (b : Bool) : (s.setC b).mem = s.mem := rfl
@[simp] theorem State.setC_via (s : State) (b : Bool) : (s.setC b).via = s.via := rfl
@[simp] theorem State.setC_uart (s : State) (b : Bool) : (s.setC b).uart = s.uart := rfl
@[simp] theorem State.setC_lcd (s : State) (b : Bool) : (s.setC b).lcd = s.lcd := rfl
@[simp] theorem State.setC_pinDraws (s : State) (b : Bool) : (s.setC b).pinDraws = s.pinDraws := rfl

@[simp] theorem State.setZ_a (s : State) (b : Bool) : (s.setZ b).a = s.a := rfl
@[simp] theorem State.setZ_x (s : State) (b : Bool) : (s.setZ b).x = s.x := rfl
@[simp] theorem State.setZ_y (s : State) (b : Bool) : (s.setZ b).y = s.y := rfl
@[simp] theorem State.setZ_sp (s : State) (b : Bool) : (s.setZ b).sp = s.sp := rfl
@[simp] theorem State.setZ_p (s : State) (b : Bool) : (s.setZ b).p = withBit s.p 1 b := rfl
@[simp] theorem State.setZ_pc (s : State) (b : Bool) : (s.setZ b).pc = s.pc := rfl
@[simp] theorem State.setZ_st (s : State) (b : Bool) : (s.setZ b).st = s.st := rfl
@[simp] theorem State.setZ_mem (s : State) (b : Bool) : (s.setZ b).mem = s.mem := rfl
@[simp] theorem State.setZ_via (s : State) (b : Bool) : (s.setZ b).via = s.via := rfl
@[simp] theorem State.setZ_uart (s : State) (b : Bool) : (s.setZ b).uart = s.uart := rfl
@[simp] theorem State.setZ_lcd (s : State) (b : Bool) : (s.setZ b).lcd = s.lcd := rfl
@[simp] theorem State.setZ_pinDraws (s : State) (b : Bool) : (s.setZ b).pinDraws = s.pinDraws := rfl

@[simp] theorem State.setI_a (s : State) (b : Bool) : (s.setI b).a = s.a := rfl
@[simp] theorem State.setI_x (s : State) (b : Bool) : (s.setI b).x = s.x := rfl
@[simp] theorem State.setI_y (s : State) (b : Bool) : (s.setI b).y = s.y := rfl
@[simp] theorem State.setI_sp (s : State) (b : Bool) : (s.setI b).sp = s.sp := rfl
@[simp] theorem State.setI_p (s : State) (b : Bool) : (s.setI b).p = withBit s.p 2 b := rfl
@[simp] theorem State.setI_pc (s : State) (b : Bool) : (s.setI b).pc = s.pc := rfl
@[simp] theorem State.setI_st (s : State) (b : Bool) : (s.setI b).st = s.st := rfl
@[simp] theorem State.setI_mem (s : State) (b : Bool) : (s.setI b).mem = s.mem := rfl
@[simp] theorem State.setI_via (s : State) (b : Bool) : (s.setI b).via = s.via := rfl
@[simp] theorem State.setI_uart (s : State) (b : Bool) : (s.setI b).uart = s.uart := rfl
@[simp] theorem State.setI_lcd (s : State) (b : Bool) : (s.setI b).lcd = s.lcd := rfl
@[simp] theorem State.setI_pinDraws (s : State) (b : Bool) : (s.setI b).pinDraws = s.pinDraws := rfl

@[simp] theorem State.setD_a (s : State) (b : Bool) : (s.setD b).a = s.a := rfl
@[simp] theorem State.setD_x (s : State) (b : Bool) : (s.setD b).x = s.x := rfl
@[simp] theorem State.setD_y (s : State) (b : Bool) : (s.setD b).y = s.y := rfl
@[simp] theorem State.setD_sp (s : State) (b : Bool) : (s.setD b).sp = s.sp := rfl
@[simp] theorem State.setD_p (s : State) (b : Bool) : (s.setD b).p = withBit s.p 3 b := rfl
@[simp] theorem State.setD_pc (s : State) (b : Bool) : (s.setD b).pc = s.pc := rfl
@[simp] theorem State.setD_st (s : State) (b : Bool) : (s.setD b).st = s.st := rfl
@[simp] theorem State.setD_mem (s : State) (b : Bool) : (s.setD b).mem = s.mem := rfl
@[simp] theorem State.setD_via (s : State) (b : Bool) : (s.setD b).via = s.via := rfl
@[simp] theorem State.setD_uart (s : State) (b : Bool) : (s.setD b).uart = s.uart := rfl
@[simp] theorem State.setD_lcd (s : State) (b : Bool) : (s.setD b).lcd = s.lcd := rfl
@[simp] theorem State.setD_pinDraws (s : State) (b : Bool) : (s.setD b).pinDraws = s.pinDraws := rfl

@[simp] theorem State.setV_a (s : State) (b : Bool) : (s.setV b).a = s.a := rfl
@[simp] theorem State.setV_x (s : State) (b : Bool) : (s.setV b).x = s.x := rfl
@[simp] theorem State.setV_y (s : State) (b : Bool) : (s.setV b).y = s.y := rfl
@[simp] theorem State.setV_sp (s : State) (b : Bool) : (s.setV b).sp = s.sp := rfl
@[simp] theorem State.setV_p (s : State) (b : Bool) : (s.setV b).p = withBit s.p 6 b := rfl
@[simp] theorem State.setV_pc (s : State) (b : Bool) : (s.setV b).pc = s.pc := rfl
@[simp] theorem State.setV_st (s : State) (b : Bool) : (s.setV b).st = s.st := rfl
@[simp] theorem State.setV_mem (s : State) (b : Bool) : (s.setV b).mem = s.mem := rfl
@[simp] theorem State.setV_via (s : State) (b : Bool) : (s.setV b).via = s.via := rfl
@[simp] theorem State.setV_uart (s : State) (b : Bool) : (s.setV b).uart = s.uart := rfl
@[simp] theorem State.setV_lcd (s : State) (b : Bool) : (s.setV b).lcd = s.lcd := rfl
@[simp] theorem State.setV_pinDraws (s : State) (b : Bool) : (s.setV b).pinDraws = s.pinDraws := rfl

@[simp] theorem State.setN_a (s : State) (b : Bool) : (s.setN b).a = s.a := rfl
@[simp] theorem State.setN_x (s : State) (b : Bool) : (s.setN b).x = s.x := rfl
@[simp] theorem State.setN_y (s : State) (b : Bool) : (s.setN b).y = s.y := rfl
@[simp] theorem State.setN_sp (s : State) (b : Bool) : (s.setN b).sp = s.sp := rfl
@[simp] theorem State.setN_p (s : State) (b : Bool) : (s.setN b).p = withBit s.p 7 b := rfl
@[simp] theorem State.setN_pc (s : State) (b : Bool) : (s.setN b).pc = s.pc := rfl
@[simp] theorem State.setN_st (s : State) (b : Bool) : (s.setN b).st = s.st := rfl
@[simp] theorem State.setN_mem (s : State) (b : Bool) : (s.setN b).mem = s.mem := rfl
@[simp] theorem State.setN_via (s : State) (b : Bool) : (s.setN b).via = s.via := rfl
@[simp] theorem State.setN_uart (s : State) (b : Bool) : (s.setN b).uart = s.uart := rfl
@[simp] theorem State.setN_lcd (s : State) (b : Bool) : (s.setN b).lcd = s.lcd := rfl
@[simp] theorem State.setN_pinDraws (s : State) (b : Bool) : (s.setN b).pinDraws = s.pinDraws := rfl

@[simp] theorem State.setNZ_a (s : State) (v : Byte) : (s.setNZ v).a = s.a := rfl
@[simp] theorem State.setNZ_x (s : State) (v : Byte) : (s.setNZ v).x = s.x := rfl
@[simp] theorem State.setNZ_y (s : State) (v : Byte) : (s.setNZ v).y = s.y := rfl
@[simp] theorem State.setNZ_sp (s : State) (v : Byte) : (s.setNZ v).sp = s.sp := rfl
@[simp] theorem State.setNZ_p (s : State) (v : Byte) : (s.setNZ v).p = withBit (withBit s.p 7 (v.getLsbD 7)) 1 (v == 0) := rfl
@[simp] theorem State.setNZ_pc (s : State) (v : Byte) : (s.setNZ v).pc = s.pc := rfl
@[simp] theorem State.setNZ_st (s : State) (v : Byte) : (s.setNZ v).st = s.st := rfl
@[simp] theorem State.setNZ_mem (s : State) (v : Byte) : (s.setNZ v).mem = s.mem := rfl
@[simp] theorem State.setNZ_via (s : State) (v : Byte) : (s.setNZ v).via = s.via := rfl
@[simp] theorem State.setNZ_uart (s : State) (v : Byte) : (s.setNZ v).uart = s.uart := rfl
@[simp] theorem State.setNZ_lcd (s : State) (v : Byte) : (s.setNZ v).lcd = s.lcd := rfl
@[simp] theorem State.setNZ_pinDraws (s : State) (v : Byte) : (s.setNZ v).pinDraws = s.pinDraws := rfl

@[simp] theorem State.loadP_a (s : State) (v : Byte) : (s.loadP v).a = s.a := rfl
@[simp] theorem State.loadP_x (s : State) (v : Byte) : (s.loadP v).x = s.x := rfl
@[simp] theorem State.loadP_y (s : State) (v : Byte) : (s.loadP v).y = s.y := rfl
@[simp] theorem State.loadP_sp (s : State) (v : Byte) : (s.loadP v).sp = s.sp := rfl
@[simp] theorem State.loadP_p (s : State) (v : Byte) : (s.loadP v).p = v ||| 0x20 := rfl
@[simp] theorem State.loadP_pc (s : State) (v : Byte) : (s.loadP v).pc = s.pc := rfl
@[simp] theorem State.loadP_st (s : State) (v : Byte) : (s.loadP v).st = s.st := rfl
@[simp] theorem State.loadP_mem (s : State) (v : Byte) : (s.loadP v).mem = s.mem := rfl
@[simp] theorem State.loadP_via (s : State) (v : Byte) : (s.loadP v).via = s.via := rfl
@[simp] theorem State.loadP_uart (s : State) (v : Byte) : (s.loadP v).uart = s.uart := rfl
@[simp] theorem State.loadP_lcd (s : State) (v : Byte) : (s.loadP v).lcd = s.lcd := rfl
@[simp] theorem State.loadP_pinDraws (s : State) (v : Byte) : (s.loadP v).pinDraws = s.pinDraws := rfl

/-- A bit written reads back, and every other bit is kept. -/
theorem getLsbD_withBit (v : Byte) (i j : Nat) (b : Bool) (hi : i < 8) (hj : j < 8) :
    (withBit v i b).getLsbD j = if j = i then b else v.getLsbD j := by
  unfold withBit
  cases b
  · by_cases h : j = i
    · subst h
      simp [hj]
    · simp only [Bool.false_eq_true, if_false, BitVec.getLsbD_and, BitVec.getLsbD_not, BitVec.getLsbD_shiftLeft, hj,
        decide_true, Bool.true_and, h]
      by_cases hlt : j < i
      · simp [hlt]
      · have : ¬ j - i = 0 := by omega
        simp [this]
  · by_cases h : j = i
    · subst h
      simp [hj]
    · simp only [if_true, BitVec.getLsbD_or, BitVec.getLsbD_shiftLeft, hj, decide_true, Bool.true_and, h, if_false]
      by_cases hlt : j < i
      · simp [hlt]
      · have : ¬ j - i = 0 := by omega
        simp [this]

theorem withBit_eq_putBit (v : Byte) (i : Nat) (b : Bool) : withBit v i b = putBit v (1#8 <<< i) (some b) := by
  cases b <;> rfl

theorem getLsbD_seven (v : Byte) : v.getLsbD 7 = decide (128 ≤ v.toNat) := by
  have h := BitVec.msb_eq_decide v
  rw [BitVec.msb_eq_getLsbD_last] at h
  simpa using h

theorem beq_zero_byte (v : Byte) : (v == 0) = decide (v.toNat = 0) := by
  rw [Bool.eq_iff_iff, beq_iff_eq, decide_eq_true_eq]
  constructor
  · rintro rfl; rfl
  · exact fun h => BitVec.eq_of_toNat_eq (by simpa using h)

/-- Writes of different bits of `P` commute. -/
theorem withBit_comm (v : Byte) (i j : Nat) (b c : Bool) (hi : i < 8) (hj : j < 8) (h : i ≠ j) :
    withBit (withBit v i b) j c = withBit (withBit v j c) i b := by
  apply BitVec.eq_of_getLsbD_eq
  intro k hk
  rw [getLsbD_withBit _ _ _ _ hj hk, getLsbD_withBit _ _ _ _ hi hk, getLsbD_withBit _ _ _ _ hi hk,
    getLsbD_withBit _ _ _ _ hj hk]
  by_cases h1 : k = j
  · subst h1
    have : ¬ k = i := fun e => h e.symm
    simp [this]
  · simp [h1]

/-- `setNZ` in the vocabulary of the statements (R27). -/
theorem State.setNZ_eq_pNZ (s : State) (v : Byte) : s.setNZ v = { s with p := pNZ s.p v } := by
  simp only [State.setNZ, State.setN, State.setZ, pNZ, pWith, putBit, withBit_eq_putBit, getLsbD_seven,
    beq_zero_byte]
  rfl

/-- A write of C and then `setNZ`, in the vocabulary of the statements. -/
theorem State.setC_setNZ_eq_pNZC (s : State) (c : Bool) (v : Byte) :
    (s.setC c).setNZ v = { s with p := pNZC s.p v c } := by
  have h : ∀ p : Byte, withBit (withBit (withBit p 0 c) 7 (v.getLsbD 7)) 1 (v == 0) = pNZC p v c := by
    intro p
    rw [withBit_comm p 0 7 _ _ (by decide) (by decide) (by decide),
      withBit_comm _ 0 1 _ _ (by decide) (by decide) (by decide)]
    simp only [pNZC, pWith, putBit, withBit_eq_putBit, getLsbD_seven, beq_zero_byte]
    rfl
  simp only [State.setNZ, State.setN, State.setZ, State.setC, h]

/-- The flags of an addition in the vocabulary of the statements: C, V, N and Z. -/
theorem State.setC_setV_setNZ_eq_pWith (s : State) (c v : Bool) (r : Byte) :
    ((s.setC c).setV v).setNZ r =
      { s with p := pWith s.p (some (decide (128 ≤ r.toNat))) (some v) (some (decide (r.toNat = 0))) (some c) } := by
  have h : ∀ p : Byte, withBit (withBit (withBit (withBit p 0 c) 6 v) 7 (r.getLsbD 7)) 1 (r == 0) =
      pWith p (some (decide (128 ≤ r.toNat))) (some v) (some (decide (r.toNat = 0))) (some c) := by
    intro p
    rw [withBit_comm p 0 6 _ _ (by decide) (by decide) (by decide),
      withBit_comm _ 0 7 _ _ (by decide) (by decide) (by decide),
      withBit_comm _ 0 1 _ _ (by decide) (by decide) (by decide),
      withBit_comm p 6 7 _ _ (by decide) (by decide) (by decide)]
    simp only [pWith, putBit, withBit_eq_putBit, getLsbD_seven, beq_zero_byte]
    rfl
  simp only [State.setNZ, State.setN, State.setZ, State.setC, State.setV, h]

end Sys2Proof.Machine
end

