-- ==== Sys2Proof/Laws/Ops.lean ====
section
/-! SUPPORT. One lemma per shared operation: words, the stack, vectors, the trap entry and the return from it, effective
addresses, operands, read-modify-write, in the vocabulary of the statements. -/

namespace Sys2Proof.Machine

@[simp] theorem wordOf_toNat (lo hi : Byte) : (wordOf lo hi).toNat = lo.toNat + 256 * hi.toNat := by
  have h : (wordOf lo hi).toNat = (hi ++ lo : BitVec 16).toNat := rfl
  rw [h, BitVec.toNat_append, ← Nat.shiftLeft_add_eq_or_of_lt lo.isLt, Nat.shiftLeft_eq]
  omega

theorem wordOf_eq (lo hi : Byte) : wordOf lo hi = BitVec.ofNat 16 (lo.toNat + 256 * hi.toNat) := by
  apply BitVec.eq_of_toNat_eq
  have h1 := lo.isLt
  have h2 := hi.isLt
  rw [wordOf_toNat, BitVec.toNat_ofNat]
  omega

@[simp] theorem lo8_toNat (w : Word) : (lo8 w).toNat = w.toNat % 256 := by simp [lo8]
@[simp] theorem hi8_toNat (w : Word) : (hi8 w).toNat = w.toNat / 256 := by
  have := w.isLt
  simp [hi8, Nat.shiftRight_eq_div_pow]
  omega

/-- A word is its two bytes (R8, R74). -/
@[simp] theorem wordOf_lo8_hi8 (w : Word) : wordOf (lo8 w) (hi8 w) = w := by
  apply BitVec.eq_of_toNat_eq
  rw [wordOf_toNat, lo8_toNat, hi8_toNat]
  omega

@[simp] theorem lo8_wordOf (lo hi : Byte) : lo8 (wordOf lo hi) = lo := by
  apply BitVec.eq_of_toNat_eq
  have := lo.isLt
  rw [lo8_toNat, wordOf_toNat]
  omega

@[simp] theorem hi8_wordOf (lo hi : Byte) : hi8 (wordOf lo hi) = hi := by
  apply BitVec.eq_of_toNat_eq
  have := lo.isLt
  rw [hi8_toNat, wordOf_toNat]
  omega

theorem stackAddr_toNat (sp : Byte) : (stackAddr sp).toNat = stackCell sp := by
  simp [stackAddr, stackCell]; omega

theorem stackAddr_ram (sp : Byte) : (stackAddr sp).toNat ≤ 0x3FFF := by
  have := sp.isLt
  rw [stackAddr_toNat, stackCell]; omega

theorem stackCell_isRam (sp : Byte) : isRam (stackCell sp) := by
  have := sp.isLt
  simp only [isRam, stackCell]; omega

/-- Distinct stack pointers designate distinct cells. -/
theorem stackCell_inj {s t : Byte} (h : stackCell s = stackCell t) : s = t :=
  BitVec.eq_of_toNat_eq (by simpa [stackCell] using h)

theorem hi8_eq (w : Word) : hi8 w = BitVec.ofNat 8 (w.toNat / 256) := by
  apply BitVec.eq_of_toNat_eq
  have := w.isLt
  rw [hi8_toNat, BitVec.toNat_ofNat]; omega

theorem lo8_eq (w : Word) : lo8 w = BitVec.ofNat 8 (w.toNat % 256) := by
  apply BitVec.eq_of_toNat_eq
  rw [lo8_toNat, BitVec.toNat_ofNat]; omega

theorem stackCell_ne {s t : Byte} (h : s ≠ t) : stackCell s ≠ stackCell t := fun e => h (stackCell_inj e)

/-- One stack cell written. -/
theorem MemChanged.stack1 (m : Memory) (s1 : Byte) (x : Byte) :
    MemChanged m [(stackCell s1, x)] (Memory.write m (stackCell s1) x) :=
  MemChanged.of_write m x (.inl (stackCell_isRam s1))

/-- Two different stack cells written. -/
theorem MemChanged.stack2 (m : Memory) {s1 s2 : Byte} (x y : Byte) (h : s1 ≠ s2) :
    MemChanged m [(stackCell s1, x), (stackCell s2, y)]
      (Memory.write (Memory.write m (stackCell s1) x) (stackCell s2) y) :=
  (stack1 m s1 x).append (stack1 _ s2 y) (by simpa using stackCell_ne h)

/-- Three different stack cells written. -/
theorem MemChanged.stack3 (m : Memory) {s1 s2 s3 : Byte} (x y z : Byte) (h12 : s1 ≠ s2) (h13 : s1 ≠ s3)
    (h23 : s2 ≠ s3) :
    MemChanged m [(stackCell s1, x), (stackCell s2, y), (stackCell s3, z)]
      (Memory.write (Memory.write (Memory.write m (stackCell s1) x) (stackCell s2) y) (stackCell s3) z) :=
  (stack2 m x y h12).append (stack1 _ s3 z) (by simpa using ⟨stackCell_ne h13, stackCell_ne h23⟩)

/-- A word whose two bytes lie in memory reads back. -/
theorem memWord_of_bytes {s : State} {k k' : Nat} {w : Word} (h : Memory.read s.mem k = lo8 w)
    (h' : Memory.read s.mem k' = hi8 w) : memWord s k k' = w := by
  rw [memWord, ← wordOf_eq, h, h', wordOf_lo8_hi8]

theorem zeroPage_toNat (lo : Byte) : (zeroPage lo).toNat = lo.toNat := by simp [zeroPage]

theorem zeroPage_plain (lo : Byte) : ¬ inDeviceWindow (zeroPage lo) := by
  have := lo.isLt
  rw [inDeviceWindow, zeroPage_toNat]; omega

theorem plainByte_mem {a : Word} (s : State) (h : ¬ (0x8000 ≤ a.toNat ∧ a.toNat ≤ 0xDFFF)) :
    plainByte s a = Memory.read s.mem a.toNat := by simp only [plainByte, h, if_false]

/-- A read of a memory cell, `RAM` or `ROM` (R62). -/
theorem memRead_mem {a : Word} (s : State) (h : a.toNat ≤ 0x3FFF ∨ 0xE000 ≤ a.toNat) :
    memRead a s = (Memory.read s.mem a.toNat, s) := by
  rw [memRead_plain s (by simp only [inDeviceWindow]; omega), plainByte_mem s (by omega)]

/-- Push (R30): the stack cell written, `SP` one less; nothing else. -/
theorem push_eq (v : Byte) (s : State) :
    push v s = { s with mem := Memory.write s.mem (stackCell s.sp) v, sp := s.sp - 1 } := by
  simp only [push, memWrite_ram v s (stackAddr_ram s.sp), stackAddr_toNat]

/-- Pull (R30): `SP` one more, and the byte of the cell it then designates; nothing else. -/
theorem pull_eq (s : State) :
    pull s = (Memory.read s.mem (stackCell (s.sp + 1)), { s with sp := s.sp + 1 }) := by
  simp only [pull]
  rw [memRead_mem _ (.inl (stackAddr_ram _)), stackAddr_toNat]

theorem pushWord_eq (w : Word) (s : State) :
    pushWord w s =
      { s with
        mem := Memory.write (Memory.write s.mem (stackCell s.sp) (hi8 w)) (stackCell (s.sp - 1)) (lo8 w)
        sp := s.sp - 2 } := by
  simp only [pushWord, push_eq]
  congr 1
  bv_omega

theorem pullWord_eq (s : State) :
    pullWord s = (memWord s (stackCell (s.sp + 1)) (stackCell (s.sp + 2)), { s with sp := s.sp + 2 }) := by
  have h : s.sp + 1 + 1 = s.sp + 2 := by bv_omega
  simp only [pullWord, pull_eq, h, wordOf_eq, memWord]

/-- A little-endian word read from two memory cells. -/
theorem readWordAt_mem {aLo aHi : Word} (s : State) (hl : aLo.toNat ≤ 0x3FFF ∨ 0xE000 ≤ aLo.toNat)
    (hh : aHi.toNat ≤ 0x3FFF ∨ 0xE000 ≤ aHi.toNat) :
    readWordAt aLo aHi s = (memWord s aLo.toNat aHi.toNat, s) := by
  simp only [readWordAt, memRead_mem s hl, memRead_mem s hh, wordOf_eq, memWord]

/-- The boot step (R423). -/
theorem boot_eq (s : State) : boot s = { s with pc := memWord s 0xFFFC 0xFFFD, st := .running } := by
  simp only [boot]
  rw [readWordAt_mem s (.inr (by decide)) (.inr (by decide))]
  rfl

/-- The trap entry (R300): three bytes on the stack, I set, D cleared, `PC` from the vector. -/
theorem takeTrap_eq (ret : Word) (s : State) :
    takeTrap ret s =
      { s with
        mem := Memory.write (Memory.write (Memory.write s.mem (stackCell s.sp) (hi8 ret)) (stackCell (s.sp - 1))
          (lo8 ret)) (stackCell (s.sp - 2)) (s.p ||| 0x30)
        sp := s.sp - 3
        p := withBit (withBit s.p 2 true) 3 false
        pc := memWord s 0xFFFE 0xFFFF } := by
  have hsp : s.sp - 2 - 1 = s.sp - 3 := by bv_omega
  have hne : ∀ (k : Nat) (sp : Byte), 0xE000 ≤ k → k ≠ stackCell sp := by
    intro k sp hk
    have := sp.isLt
    simp only [stackCell]; omega
  simp only [takeTrap, pushWord_eq, push_eq, State.pushedP, State.setI, State.setD, hsp]
  rw [readWordAt_mem _ (.inr (by decide)) (.inr (by decide))]
  simp only [memWord]
  have h1 : BitVec.toNat (0xFFFE : Word) = 0xFFFE := rfl
  have h2 : BitVec.toNat (0xFFFF : Word) = 0xFFFF := rfl
  simp only [h1, h2, Memory.read_write_ne _ _ (hne 0xFFFE _ (by decide)),
    Memory.read_write_ne _ _ (hne 0xFFFF _ (by decide))]

/-- The return from the trap (R301). -/
theorem returnFromTrap_eq (s : State) :
    returnFromTrap s =
      { s with
        sp := s.sp + 3
        p := Memory.read s.mem (stackCell (s.sp + 1)) ||| 0x20
        pc := memWord s (stackCell (s.sp + 2)) (stackCell (s.sp + 3)) } := by
  have h2 : s.sp + 1 + 1 = s.sp + 2 := by bv_omega
  have h3 : s.sp + 1 + 2 = s.sp + 3 := by bv_omega
  simp only [returnFromTrap, pull_eq, State.loadP, pullWord_eq, h2, h3, memWord]

theorem readPointer_eq (lo : Byte) (s : State) : readPointer lo s = (pointerAt s lo.toNat, s) := by
  have h : ∀ b : Byte, (zeroPage b).toNat ≤ 0x3FFF ∨ 0xE000 ≤ (zeroPage b).toNat := fun b => by
    have := b.isLt
    rw [zeroPage_toNat]; omega
  rw [readPointer, readWordAt_mem s (h _) (h _), zeroPage_toNat, zeroPage_toNat]
  rw [pointerAt, BitVec.toNat_add]
  rfl

theorem zeroPage_eq (lo : Byte) : zeroPage lo = BitVec.ofNat 16 lo.toNat := by
  apply BitVec.eq_of_toNat_eq
  have := lo.isLt
  rw [zeroPage_toNat, BitVec.toNat_ofNat]; omega

theorem add_byte_eq (w : Word) (b : Byte) :
    w + b.setWidth 16 = BitVec.ofNat 16 ((w.toNat + b.toNat) % 65536) := by
  apply BitVec.eq_of_toNat_eq
  have := b.isLt
  simp only [BitVec.toNat_add, BitVec.toNat_setWidth, BitVec.toNat_ofNat]
  omega

/-- The effective address of every mode (R104, R105, R107 to R109), its pointer reads without side effect. -/
theorem effAddr_eq (m : AddrMode) (s : State) : effAddr m s = (eaOf m s, s) := by
  cases m <;>
    simp only [effAddr, eaOf, zeroPage_eq, readPointer_eq, add_byte_eq, BitVec.toNat_add, Nat.reducePow]

/-- An operand read (R140). -/
theorem loadOperand_eq (o : Operand) (s : State) : loadOperand o s = (operandByte o s, operandAfter o s) := by
  cases o with
  | imm v => rfl
  | mem m => simp only [loadOperand, effAddr_eq, operandByte, operandAfter, memRead_eq]

@[simp] theorem operandAfter_a (o : Operand) (s : State) : (operandAfter o s).a = s.a := by cases o <;> rfl
@[simp] theorem operandAfter_x (o : Operand) (s : State) : (operandAfter o s).x = s.x := by cases o <;> rfl
@[simp] theorem operandAfter_y (o : Operand) (s : State) : (operandAfter o s).y = s.y := by cases o <;> rfl
@[simp] theorem operandAfter_sp (o : Operand) (s : State) : (operandAfter o s).sp = s.sp := by cases o <;> rfl
@[simp] theorem operandAfter_p (o : Operand) (s : State) : (operandAfter o s).p = s.p := by cases o <;> rfl
@[simp] theorem operandAfter_pc (o : Operand) (s : State) : (operandAfter o s).pc = s.pc := by cases o <;> rfl
@[simp] theorem operandAfter_st (o : Operand) (s : State) : (operandAfter o s).st = s.st := by cases o <;> rfl
@[simp] theorem operandAfter_mem (o : Operand) (s : State) : (operandAfter o s).mem = s.mem := by cases o <;> rfl
@[simp] theorem operandAfter_via (o : Operand) (s : State) : (operandAfter o s).via = s.via := by cases o <;> rfl

/-- A store (R140): one bus write at the effective address. -/
theorem storeOperand_eq (m : AddrMode) (v : Byte) (s : State) : storeOperand m v s = memWrite (eaOf m s) v s := by
  simp only [storeOperand, effAddr_eq]

/-- A read-modify-write on memory (R200): one read, one write at the same address, then the flags. -/
theorem modifyMem_eq (m : AddrMode) (f : Byte → Byte) (flags : Byte → Byte → State → State) (s : State) :
    modifyMem m f flags s =
      flags (byteAt (eaOf m s) s) (f (byteAt (eaOf m s) s))
        (memWrite (eaOf m s) (f (byteAt (eaOf m s) s)) (afterRead (eaOf m s) s)) := by
  simp only [modifyMem, effAddr_eq, memRead_eq]

end Sys2Proof.Machine
end

