-- ==== Sys2Proof/Laws/Bodies.lean ====
section
/-! SUPPORT. One lemma per body of an instruction rule, over its operand: everything the body does, in the vocabulary of
the statements. A meaning is one line over its body, so these are what is cited about it. -/

namespace Sys2Proof.Machine

/-! ### Loads -/

theorem lda_eq (o : Operand) (s : State) :
    lda o s = { operandAfter o s with a := operandByte o s, p := pNZ s.p (operandByte o s) } := by
  simp only [lda, loadOperand_eq, State.setNZ_eq_pNZ, operandAfter_p]

theorem ldx_eq (o : Operand) (s : State) :
    ldx o s = { operandAfter o s with x := operandByte o s, p := pNZ s.p (operandByte o s) } := by
  simp only [ldx, loadOperand_eq, State.setNZ_eq_pNZ, operandAfter_p]

theorem ldy_eq (o : Operand) (s : State) :
    ldy o s = { operandAfter o s with y := operandByte o s, p := pNZ s.p (operandByte o s) } := by
  simp only [ldy, loadOperand_eq, State.setNZ_eq_pNZ, operandAfter_p]

/-! ### The adder, compare -/

theorem add8_r_toNat (a m : Byte) (c : Bool) :
    (add8 a m c).r.toNat = (a.toNat + m.toNat + c.toNat) % 256 := by
  simp [add8]

theorem add8_cout (a m : Byte) (c : Bool) : (add8 a m c).cout = decide (a.toNat + m.toNat + c.toNat > 255) := rfl

theorem toInt_byte (v : Byte) : v.toInt = if 128 ≤ v.toNat then (v.toNat : Int) - 256 else v.toNat := by
  rw [BitVec.toInt_eq_toNat_cond]
  split <;> split <;> omega

/-- The overflow is "the signed sum lies outside -128..127" (R170). -/
theorem add8_v (a m : Byte) (c : Bool) :
    (add8 a m c).v = decide (a.toInt + m.toInt + c.toNat < -128 ∨ a.toInt + m.toInt + c.toNat > 127) := by
  have ha := a.isLt
  have hm := m.isLt
  have hr := add8_r_toNat a m c
  have hv : (add8 a m c).v = ((a.getLsbD 7 == m.getLsbD 7) && ((add8 a m c).r.getLsbD 7 != a.getLsbD 7)) := rfl
  rw [hv, getLsbD_seven, getLsbD_seven, getLsbD_seven, hr, toInt_byte, toInt_byte]
  have hc : c.toNat ≤ 1 := by cases c <;> decide
  generalize c.toNat = k at *
  rw [Bool.eq_iff_iff]
  simp only [Bool.and_eq_true, beq_iff_eq, bne_iff_ne, ne_eq, decide_eq_true_eq, decide_eq_decide]
  split <;> split <;> omega

theorem flagC_toNat (s : State) : s.flagC.toNat = carryNat s := by
  rw [State.flagC, carryNat]
  cases s.p.getLsbD 0 <;> rfl

/-- `addToA`: the four flags and `A`. -/
theorem addToA_eq (m : Byte) (s : State) :
    addToA m s = { s with
      a := (add8 s.a m s.flagC).r
      p := pWith s.p (some (decide (128 ≤ (add8 s.a m s.flagC).r.toNat))) (some (add8 s.a m s.flagC).v)
        (some (decide ((add8 s.a m s.flagC).r.toNat = 0))) (some (add8 s.a m s.flagC).cout) } := by
  simp only [addToA, State.setC_setV_setNZ_eq_pWith]

/-- A compare writes N, Z and C as an exact comparison gives them (R176). -/
theorem compareReg_eq (r m : Byte) (s : State) :
    compareReg r m s = { s with
      p := pWith s.p (some ((r - m).getLsbD 7)) none (some (decide (r = m))) (some (decide (m.toNat ≤ r.toNat))) } := by
  have hr := r.isLt
  have hm := m.isLt
  have hd : (add8 r (~~~m) true).r = r - m := by
    apply BitVec.eq_of_toNat_eq
    rw [add8_r_toNat, BitVec.toNat_not, BitVec.toNat_sub]
    simp only [Bool.toNat_true]
    omega
  have hc : (add8 r (~~~m) true).cout = decide (m.toNat ≤ r.toNat) := by
    rw [add8_cout, BitVec.toNat_not, decide_eq_decide]
    simp only [Bool.toNat_true]
    omega
  have hz : decide ((r - m).toNat = 0) = decide (r = m) := by
    rw [decide_eq_decide, BitVec.toNat_sub, ← BitVec.toNat_inj]
    omega
  simp only [compareReg, State.setC_setNZ_eq_pNZC, hd, hc, pNZC, hz, getLsbD_seven]

theorem cmp_eq (o : Operand) (s : State) : cmp o s = compareReg s.a (operandByte o s) (operandAfter o s) := by
  simp only [cmp, loadOperand_eq, operandAfter_a]

theorem cpx_eq (o : Operand) (s : State) : cpx o s = compareReg s.x (operandByte o s) (operandAfter o s) := by
  simp only [cpx, loadOperand_eq, operandAfter_x]

theorem cpy_eq (o : Operand) (s : State) : cpy o s = compareReg s.y (operandByte o s) (operandAfter o s) := by
  simp only [cpy, loadOperand_eq, operandAfter_y]

/-! ### Logic, bit test -/

theorem toA_eq (v : Byte) (s : State) : toA v s = { s with a := v, p := pNZ s.p v } := by
  simp only [toA, State.setNZ_eq_pNZ]

theorem andA_eq (o : Operand) (s : State) : andA o s = toA (s.a &&& operandByte o s) (operandAfter o s) := by
  simp only [andA, loadOperand_eq, operandAfter_a]

theorem oraA_eq (o : Operand) (s : State) : oraA o s = toA (s.a ||| operandByte o s) (operandAfter o s) := by
  simp only [oraA, loadOperand_eq, operandAfter_a]

theorem eorA_eq (o : Operand) (s : State) : eorA o s = toA (s.a ^^^ operandByte o s) (operandAfter o s) := by
  simp only [eorA, loadOperand_eq, operandAfter_a]

/-- BIT writes N, V and Z in every form (R180, `BIT_IMM_NV`). -/
theorem bitTest_eq (o : Operand) (s : State) :
    bitTest o s = { operandAfter o s with
      p := pWith s.p (some ((operandByte o s).getLsbD 7)) (some ((operandByte o s).getLsbD 6))
        (some (s.a &&& operandByte o s == 0)) none } := by
  have hw : bitWritesNV o = true := by cases o <;> rfl
  have hp : ∀ (p : Byte) (z n v : Bool),
      withBit (withBit (withBit p 1 z) 7 n) 6 v = pWith p (some n) (some v) (some z) none := by
    intro p z n v
    rw [withBit_comm p 1 7 _ _ (by decide) (by decide) (by decide),
      withBit_comm _ 1 6 _ _ (by decide) (by decide) (by decide)]
    simp only [pWith, putBit, withBit_eq_putBit]
    rfl
  simp only [bitTest, loadOperand_eq, hw, if_true, State.setZ, State.setN, State.setV, hp, operandAfter_p,
    operandAfter_a]

/-! ### Read-modify-write -/

/-- A read-modify-write whose flag part touches `P` alone: one bus write at the effective address after one read there,
and `P`. -/
theorem modifyMem_wrote (m : AddrMode) (f : Byte → Byte) (flags : Byte → Byte → State → State) (g : Byte → Byte)
    (s : State) (h : ∀ u : State, u.a = s.a →
      flags (byteAt (eaOf m s) s) (f (byteAt (eaOf m s) s)) u = { u with p := g u.p }) :
    WroteByte (eaOf m s) (f (byteAt (eaOf m s) s)) (afterRead (eaOf m s) s)
        { modifyMem m f flags s with p := s.p } ∧
      (modifyMem m f flags s).p = g s.p := by
  rw [modifyMem_eq, h _ (by rw [memWrite_a, afterRead_a])]
  refine ⟨?_, by rw [memWrite_p, afterRead_p]⟩
  have hp : ∀ u : State, { u with p := u.p } = u := fun _ => rfl
  have := wroteByte_memWrite (eaOf m s) (f (byteAt (eaOf m s) s)) (afterRead (eaOf m s) s)
  have e : (memWrite (eaOf m s) (f (byteAt (eaOf m s) s)) (afterRead (eaOf m s) s)).p = s.p := by
    rw [memWrite_p, afterRead_p]
  simpa only [← e, hp] using this

theorem leftFlags_eq (v r : Byte) (s : State) :
    leftFlags v r s = { s with p := pNZC s.p r (decide (128 ≤ v.toNat)) } := by
  simp only [leftFlags, State.setC_setNZ_eq_pNZC, getLsbD_seven]

theorem getLsbD_zero_byte (v : Byte) : v.getLsbD 0 = decide (v.toNat % 2 = 1) := by
  simp [BitVec.getLsbD, Nat.testBit_zero]

theorem rightFlags_eq (v r : Byte) (s : State) :
    rightFlags v r s = { s with p := pNZC s.p r (decide (v.toNat % 2 = 1)) } := by
  simp only [rightFlags, State.setC_setNZ_eq_pNZC, getLsbD_zero_byte]

theorem countFlags_eq (v r : Byte) (s : State) : countFlags v r s = { s with p := pNZ s.p r } := by
  simp only [countFlags, State.setNZ_eq_pNZ]

theorem testFlag_eq (v r : Byte) (s : State) :
    testFlag v r s = { s with p := pWith s.p none none (some (decide (s.a &&& v = 0))) none } := by
  have : (s.a &&& v == 0) = decide (s.a &&& v = 0) := by
    rw [Bool.eq_iff_iff, beq_iff_eq, decide_eq_true_eq]
  simp only [testFlag, State.setZ, pWith, putBit, withBit_eq_putBit, this]
  rfl

theorem noFlags_eq (v r : Byte) (s : State) : noFlags v r s = { s with p := s.p } := rfl

theorem aslByte_eq (v : Byte) : aslByte v = BitVec.ofNat 8 (2 * v.toNat) := by
  apply BitVec.eq_of_toNat_eq
  simp only [aslByte, BitVec.toNat_shiftLeft, Nat.shiftLeft_eq, BitVec.toNat_ofNat]
  omega

theorem lsrByte_eq (v : Byte) : lsrByte v = BitVec.ofNat 8 (v.toNat / 2) := by
  apply BitVec.eq_of_toNat_eq
  have := v.isLt
  simp only [lsrByte, BitVec.toNat_ushiftRight, Nat.shiftRight_eq_div_pow, BitVec.toNat_ofNat]
  omega

theorem rolByte_eq (c : Bool) (v : Byte) :
    rolByte c v = BitVec.ofNat 8 (2 * v.toNat + c.toNat) := by
  revert c v; decide +kernel

theorem rorByte_eq (c : Bool) (v : Byte) :
    rorByte c v = BitVec.ofNat 8 (v.toNat / 2 + 128 * c.toNat) := by
  revert c v; decide +kernel

theorem incByte_eq (v : Byte) : incByte v = BitVec.ofNat 8 (v.toNat + 1) := by
  apply BitVec.eq_of_toNat_eq
  simp [incByte, BitVec.toNat_add]

theorem decByte_eq (v : Byte) : decByte v = BitVec.ofNat 8 (v.toNat + 255) := by
  apply BitVec.eq_of_toNat_eq
  rw [decByte, BitVec.toNat_sub, BitVec.toNat_ofNat, show BitVec.toNat (1 : Byte) = 1 from rfl]
  omega

/-- RMBn and SMBn: a change of one zero-page byte and nothing else (R231, R232). -/
theorem modifyMem_zp_noFlags (lo : Byte) (f : Byte → Byte) (s : State) :
    modifyMem (.zp lo) f noFlags s =
      { s with mem := Memory.write s.mem lo.toNat (f (Memory.read s.mem lo.toNat)) } := by
  have hlo := lo.isLt
  have hn : (BitVec.ofNat 16 lo.toNat).toNat = lo.toNat := by rw [BitVec.toNat_ofNat]; omega
  have hp : ¬ inDeviceWindow (BitVec.ofNat 16 lo.toNat) := by rw [inDeviceWindow, hn]; omega
  have hb : byteAt (BitVec.ofNat 16 lo.toNat) s = Memory.read s.mem lo.toNat := by
    rw [byteAt_plain s hp, plainByte_mem s (by rw [hn]; omega), hn]
  rw [modifyMem_eq, eaOf, hb, afterRead_plain s hp, memWrite_ram _ _ (by rw [hn]; omega), hn]
  rfl

/-! ### Control flow -/

theorem branchTarget_eq (pc : Word) (off : Byte) : pc + sext16 off = branchTarget pc off := by
  apply BitVec.eq_of_toInt_eq
  have h : (sext16 off).toInt = off.toInt := BitVec.toInt_signExtend_of_le (by decide)
  rw [branchTarget, BitVec.toInt_add, h, BitVec.toInt_ofInt, BitVec.toInt_eq_toNat_bmod pc, Int.bmod_add_bmod]

theorem branch_eq (c : Bool) (off : Byte) (s : State) :
    branch c off s = { s with pc := if c then branchTarget s.pc off else s.pc } := by
  cases c
  · rfl
  · simp only [branch, if_true, branchTarget_eq]

theorem branchOnBit_eq (n : Nat) (b : Bool) (lo off : Byte) (s : State) :
    branchOnBit n b lo off s =
      { s with pc := if (Memory.read s.mem lo.toNat).getLsbD n = b then branchTarget s.pc off else s.pc } := by
  have hlo := lo.isLt
  have hn : (BitVec.ofNat 16 lo.toNat).toNat = lo.toNat := by rw [BitVec.toNat_ofNat]; omega
  have hp : ¬ inDeviceWindow (BitVec.ofNat 16 lo.toNat) := by rw [inDeviceWindow, hn]; omega
  have hb : byteAt (BitVec.ofNat 16 lo.toNat) s = Memory.read s.mem lo.toNat := by
    rw [byteAt_plain s hp, plainByte_mem s (by rw [hn]; omega), hn]
  simp only [branchOnBit, loadOperand_eq, operandByte, operandAfter, eaOf, hb, afterRead_plain s hp, branch_eq,
    beq_iff_eq]

theorem jumpThrough_eq (aLo aHi : Word) (s : State) :
    jumpThrough aLo aHi s = { afterRead aHi (afterRead aLo s) with
      pc := BitVec.ofNat 16 ((byteAt aLo s).toNat + 256 * (byteAt aHi (afterRead aLo s)).toNat) } := by
  simp only [jumpThrough, readWordAt, memRead_eq, wordOf_eq]

theorem indirectHighAddr_eq (addr : Word) :
    indirectHighAddr addr = BitVec.ofNat 16
      (if Config.jmpIndPageWrap then addr.toNat / 256 * 256 + (addr.toNat + 1) % 256 else addr.toNat + 1) := by
  have h := addr.isLt
  have hl := lo8_toNat addr
  have hs : (addr + 1).toNat = (addr.toNat + 1) % 65536 := by rw [BitVec.toNat_add]; rfl
  apply BitVec.eq_of_toNat_eq
  rw [indirectHighAddr, BitVec.toNat_ofNat]
  by_cases hc : lo8 addr = 0xFF
  · have hv : addr.toNat % 256 = 255 := by rw [← hl, hc]; rfl
    rw [if_pos hc]
    split
    · rw [wordOf_toNat, hi8_toNat, show BitVec.toNat (0 : Byte) = 0 from rfl]
      omega
    · rw [hs]
  · have hv : addr.toNat % 256 ≠ 255 := fun e => hc (BitVec.eq_of_toNat_eq (hl.trans e))
    rw [if_neg hc, hs]
    split <;> omega

theorem jsrTo_eq (addr : Word) (s : State) :
    jsrTo addr s = { s with
      mem := Memory.write (Memory.write s.mem (stackCell s.sp) (hi8 (s.pc - 1))) (stackCell (s.sp - 1)) (lo8 (s.pc - 1))
      sp := s.sp - 2
      pc := addr } := by
  simp only [jsrTo, pushWord_eq]

theorem rtsBody_eq (s : State) :
    rtsBody s = { s with
      sp := s.sp + 2, pc := memWord s (stackCell (s.sp + 1)) (stackCell (s.sp + 2)) + 1 } := by
  simp only [rtsBody, pullWord_eq]

/-! ### Stack -/

theorem pullA_eq (s : State) :
    pullA s = { s with
      sp := s.sp + 1
      a := Memory.read s.mem (stackCell (s.sp + 1))
      p := pNZ s.p (Memory.read s.mem (stackCell (s.sp + 1))) } := by
  simp only [pullA, pull_eq, State.setNZ_eq_pNZ]

theorem pullX_eq (s : State) :
    pullX s = { s with
      sp := s.sp + 1
      x := Memory.read s.mem (stackCell (s.sp + 1))
      p := pNZ s.p (Memory.read s.mem (stackCell (s.sp + 1))) } := by
  simp only [pullX, pull_eq, State.setNZ_eq_pNZ]

theorem pullY_eq (s : State) :
    pullY s = { s with
      sp := s.sp + 1
      y := Memory.read s.mem (stackCell (s.sp + 1))
      p := pNZ s.p (Memory.read s.mem (stackCell (s.sp + 1))) } := by
  simp only [pullY, pull_eq, State.setNZ_eq_pNZ]

theorem pullP_eq (s : State) :
    pullP s = { s with sp := s.sp + 1, p := Memory.read s.mem (stackCell (s.sp + 1)) ||| 0x20 } := by
  simp only [pullP, pull_eq, State.loadP]

end Sys2Proof.Machine
end

