-- ==== Sys2Proof/Laws/Decode.lean ====
section
/-! SUPPORT. The decoder's matrix against the encoder, cell by cell: an opcode's cell completes to instructions that
encode to that opcode followed by the cell's operand bytes, as many as the size table says. -/

namespace Sys2Proof

/-- What a cell of the matrix at `op` completes to encodes to `op` and the operand bytes, `SIZE[op]` bytes in all. -/
def CellEncodes (op : Byte) : Cell → Prop
  | .f1 i => encode i = [op] ∧ Config.size op = 1
  | .f2 mk => (∀ lo, encode (mk lo) = [op, lo]) ∧ Config.size op = 2
  | .f3 mk => (∀ lo hi, encode (mk lo hi) = [op, lo, hi]) ∧ Config.size op = 3

theorem CellEncodes.f1 {op : Byte} {c : Cell} {i : Instr} (h : c = .f1 i) (he : encode i = [op])
    (hs : Config.size op = 1) : CellEncodes op c := h ▸ ⟨he, hs⟩

theorem CellEncodes.f2 {op : Byte} {c : Cell} {mk : Byte → Instr} (h : c = .f2 mk)
    (he : ∀ lo, encode (mk lo) = [op, lo]) (hs : Config.size op = 2) : CellEncodes op c := h ▸ ⟨he, hs⟩

theorem CellEncodes.f3 {op : Byte} {c : Cell} {mk : Byte → Byte → Instr} (h : c = .f3 mk)
    (he : ∀ lo hi, encode (mk lo hi) = [op, lo, hi]) (hs : Config.size op = 3) : CellEncodes op c := h ▸ ⟨he, hs⟩

theorem CellEncodes.f3w {op : Byte} {c : Cell} {mk : Word → Instr} (h : c = Sys2Proof.f3w mk)
    (he : ∀ w, encode (mk w) = [op, lo8 w, hi8 w]) (hs : Config.size op = 3) : CellEncodes op c :=
  .f3 h (fun lo hi => by rw [he, Machine.lo8_wordOf, Machine.hi8_wordOf]) hs

theorem cellEncodes_ofNat {n : Nat} (h : n < 256) :
    CellEncodes (BitVec.ofNat 8 n) (opcodeCell (BitVec.ofNat 8 n)) := by
  interval_cases n <;> first
    | (apply CellEncodes.f1; rfl; rfl; rfl)
    | (apply CellEncodes.f2; rfl; (intro; rfl); rfl)
    | (apply CellEncodes.f3w; rfl; (intro; rfl); rfl)
    | (apply CellEncodes.f3; rfl; (intros; rfl); rfl)

/-- Every cell of the matrix, against the encoder and the size table (R102, R112, R113). -/
theorem cellEncodes (op : Byte) : CellEncodes op (opcodeCell op) := by
  have h := cellEncodes_ofNat op.isLt
  rwa [BitVec.ofNat_toNat, BitVec.setWidth_eq] at h

/-- The size table and the matrix agree (R112, R113). -/
theorem size_eq_cell_size (op : Byte) : Config.size op = (opcodeCell op).size := by
  have hc := cellEncodes op
  generalize opcodeCell op = c at hc
  cases c <;> exact hc.2

end Sys2Proof
end

