-- ==== Sys2Proof/Laws/Effect.lean ====
section
/-! SUPPORT. What a step can do, said once: it reads and writes the bus, and changes CPU registers without clearing bit 5
of `P`. Every invariant of the step is an induction over these three. -/

namespace Sys2Proof.Machine

/-- `t` is reached from `s` by bus reads, bus writes and changes of CPU registers that keep bit 5 of `P` set. -/
inductive Effect (s : State) : State → Prop where
  | start : Effect s s
  | read (a : Word) {t : State} (h : Effect s t) : Effect s (memRead a t).2
  | write (a : Word) (v : Byte) {t : State} (h : Effect s t) : Effect s (memWrite a v t)
  | cpu {t u : State} (h : Effect s t)
      (hu : u = { t with a := u.a, x := u.x, y := u.y, sp := u.sp, p := u.p, pc := u.pc, st := u.st })
      (hp : t.p.getLsbD 5 = true → u.p.getLsbD 5 = true) : Effect s u

theorem getLsbD_five_putBit (p : Byte) (i : Nat) (b : Option Bool) (hi : i < 8) (h : i ≠ 5) :
    (putBit p (1#8 <<< i) b).getLsbD 5 = p.getLsbD 5 := by
  cases b with
  | none => rfl
  | some b =>
    rw [← withBit_eq_putBit, getLsbD_withBit _ _ _ _ hi (by decide), if_neg (Ne.symm h)]

/-- Bit 5 of `P` is not among the flags (R25). -/
theorem pWith_bit5 (p : Byte) (n v z c : Option Bool) : (pWith p n v z c).getLsbD 5 = p.getLsbD 5 := by
  have h7 : (0x80 : Byte) = 1#8 <<< 7 := by decide
  have h6 : (0x40 : Byte) = 1#8 <<< 6 := by decide
  have h1 : (0x02 : Byte) = 1#8 <<< 1 := by decide
  have h0 : (0x01 : Byte) = 1#8 <<< 0 := by decide
  rw [pWith, h7, h6, h1, h0, getLsbD_five_putBit _ _ _ (by decide) (by decide),
    getLsbD_five_putBit _ _ _ (by decide) (by decide), getLsbD_five_putBit _ _ _ (by decide) (by decide),
    getLsbD_five_putBit _ _ _ (by decide) (by decide)]

theorem pNZ_bit5 (p r : Byte) : (pNZ p r).getLsbD 5 = p.getLsbD 5 := pWith_bit5 ..
theorem pNZC_bit5 (p r : Byte) (c : Bool) : (pNZC p r c).getLsbD 5 = p.getLsbD 5 := pWith_bit5 ..

theorem withBit_bit5 (p : Byte) (i : Nat) (b : Bool) (hi : i < 8) (h : i ≠ 5) :
    (withBit p i b).getLsbD 5 = p.getLsbD 5 := by
  rw [getLsbD_withBit _ _ _ _ hi (by decide), if_neg (Ne.symm h)]

theorem or20_bit5 (v : Byte) : (v ||| 0x20).getLsbD 5 = true := by simp

variable {s t : State}

theorem Effect.operandAfter (o : Operand) (h : Effect s t) : Effect s (operandAfter o t) := by
  cases o with
  | imm v => exact h
  | mem m =>
    have := h.read (eaOf m t)
    rwa [memRead_eq] at this

theorem Effect.afterRead (a : Word) (h : Effect s t) : Effect s (afterRead a t) := by
  have := h.read a
  rwa [memRead_eq] at this

/-- A change of `P` alone that keeps bit 5. -/
theorem Effect.status {p : Byte} (h : Effect s t) (hp : p.getLsbD 5 = t.p.getLsbD 5) : Effect s { t with p := p } :=
  h.cpu rfl fun h5 => hp.trans h5

theorem Effect.lda (o : Operand) (h : Effect s t) : Effect s (lda o t) := by
  rw [lda_eq]; exact (h.operandAfter o).cpu rfl fun h5 => (pNZ_bit5 _ _).trans (by rwa [operandAfter_p] at h5)

theorem Effect.ldx (o : Operand) (h : Effect s t) : Effect s (ldx o t) := by
  rw [ldx_eq]; exact (h.operandAfter o).cpu rfl fun h5 => (pNZ_bit5 _ _).trans (by rwa [operandAfter_p] at h5)

theorem Effect.ldy (o : Operand) (h : Effect s t) : Effect s (ldy o t) := by
  rw [ldy_eq]; exact (h.operandAfter o).cpu rfl fun h5 => (pNZ_bit5 _ _).trans (by rwa [operandAfter_p] at h5)

theorem Effect.storeOperand (m : AddrMode) (v : Byte) (h : Effect s t) : Effect s (storeOperand m v t) := by
  rw [storeOperand_eq]; exact h.write _ _

theorem Effect.addToA (m : Byte) (h : Effect s t) : Effect s (addToA m t) := by
  rw [addToA_eq]; exact h.cpu rfl (pWith_bit5 ..).trans

theorem Effect.adc (o : Operand) (h : Effect s t) : Effect s (adc o t) := by
  simp only [Machine.adc, loadOperand_eq]; exact (h.operandAfter o).addToA _

theorem Effect.sbc (o : Operand) (h : Effect s t) : Effect s (sbc o t) := by
  simp only [Machine.sbc, loadOperand_eq]; exact (h.operandAfter o).addToA _

theorem Effect.toA (v : Byte) (h : Effect s t) : Effect s (toA v t) := by
  rw [toA_eq]; exact h.cpu rfl (pNZ_bit5 ..).trans

theorem Effect.andA (o : Operand) (h : Effect s t) : Effect s (andA o t) := by
  rw [andA_eq]; exact (h.operandAfter o).toA _

theorem Effect.oraA (o : Operand) (h : Effect s t) : Effect s (oraA o t) := by
  rw [oraA_eq]; exact (h.operandAfter o).toA _

theorem Effect.eorA (o : Operand) (h : Effect s t) : Effect s (eorA o t) := by
  rw [eorA_eq]; exact (h.operandAfter o).toA _

theorem Effect.compareReg (r m : Byte) (h : Effect s t) : Effect s (compareReg r m t) := by
  rw [compareReg_eq]; exact h.status (pWith_bit5 ..)

theorem Effect.cmp (o : Operand) (h : Effect s t) : Effect s (cmp o t) := by
  rw [cmp_eq]; exact (h.operandAfter o).compareReg _ _

theorem Effect.cpx (o : Operand) (h : Effect s t) : Effect s (cpx o t) := by
  rw [cpx_eq]; exact (h.operandAfter o).compareReg _ _

theorem Effect.cpy (o : Operand) (h : Effect s t) : Effect s (cpy o t) := by
  rw [cpy_eq]; exact (h.operandAfter o).compareReg _ _

theorem Effect.bitTest (o : Operand) (h : Effect s t) : Effect s (bitTest o t) := by
  rw [bitTest_eq]; exact (h.operandAfter o).status ((pWith_bit5 ..).trans (by rw [operandAfter_p]))

/-- A read-modify-write, whatever its function, whose flag part is an effect of its own. -/
theorem Effect.modifyMem (m : AddrMode) (f : Byte → Byte) {flags : Byte → Byte → State → State}
    (hf : ∀ {u : State} (v r : Byte), Effect s u → Effect s (flags v r u)) (h : Effect s t) :
    Effect s (modifyMem m f flags t) := by
  rw [modifyMem_eq]; exact hf _ _ ((h.afterRead _).write _ _)

/-- The accumulator form of the same. -/
theorem Effect.modifyA (f : Byte → Byte) {flags : Byte → Byte → State → State}
    (hf : ∀ {u : State} (v r : Byte), Effect s u → Effect s (flags v r u)) (h : Effect s t) :
    Effect s (modifyA f flags t) := by
  rw [Machine.modifyA]; exact hf _ _ (h.cpu rfl id)

theorem Effect.leftFlags (v r : Byte) (h : Effect s t) : Effect s (leftFlags v r t) := by
  rw [leftFlags_eq]; exact h.status (pNZC_bit5 ..)

theorem Effect.rightFlags (v r : Byte) (h : Effect s t) : Effect s (rightFlags v r t) := by
  rw [rightFlags_eq]; exact h.status (pNZC_bit5 ..)

theorem Effect.countFlags (v r : Byte) (h : Effect s t) : Effect s (countFlags v r t) := by
  rw [countFlags_eq]; exact h.status (pNZ_bit5 ..)

theorem Effect.testFlag (v r : Byte) (h : Effect s t) : Effect s (testFlag v r t) := by
  rw [testFlag_eq]; exact h.status (pWith_bit5 ..)

theorem Effect.noFlags (v r : Byte) (h : Effect s t) : Effect s (noFlags v r t) := h

theorem Effect.setNZ (v : Byte) (h : Effect s t) : Effect s (t.setNZ v) := by
  rw [State.setNZ_eq_pNZ]; exact h.status (pNZ_bit5 ..)

theorem Effect.branch (c : Bool) (off : Byte) (h : Effect s t) : Effect s (branch c off t) := by
  rw [branch_eq]; exact h.cpu rfl id

theorem Effect.branchOnBit (n : Nat) (b : Bool) (lo off : Byte) (h : Effect s t) :
    Effect s (branchOnBit n b lo off t) := by
  rw [branchOnBit_eq]; exact h.cpu rfl id

theorem Effect.jumpThrough (aLo aHi : Word) (h : Effect s t) : Effect s (jumpThrough aLo aHi t) := by
  rw [jumpThrough_eq]; exact ((h.afterRead _).afterRead _).cpu rfl id

theorem Effect.push (v : Byte) (h : Effect s t) : Effect s (push v t) :=
  (h.write (stackAddr t.sp) v).cpu rfl id

theorem Effect.pull (h : Effect s t) : Effect s (pull t).2 := by
  rw [pull_eq]; exact h.cpu rfl id

theorem Effect.jsrTo (addr : Word) (h : Effect s t) : Effect s (jsrTo addr t) :=
  ((h.push _).push _).cpu rfl id

theorem Effect.rtsBody (h : Effect s t) : Effect s (rtsBody t) := by
  rw [rtsBody_eq]; exact h.cpu rfl id

theorem Effect.pullA (h : Effect s t) : Effect s (pullA t) := by
  rw [pullA_eq]; exact h.cpu rfl (pNZ_bit5 ..).trans

theorem Effect.pullX (h : Effect s t) : Effect s (pullX t) := by
  rw [pullX_eq]; exact h.cpu rfl (pNZ_bit5 ..).trans

theorem Effect.pullY (h : Effect s t) : Effect s (pullY t) := by
  rw [pullY_eq]; exact h.cpu rfl (pNZ_bit5 ..).trans

theorem Effect.pullP (h : Effect s t) : Effect s (pullP t) := by
  rw [pullP_eq]; exact h.cpu rfl fun _ => or20_bit5 _

theorem Effect.setBit (i : Nat) (b : Bool) (h : Effect s t) (hi : i < 8) (h5 : i ≠ 5) :
    Effect s { t with p := withBit t.p i b } :=
  h.status (withBit_bit5 _ _ _ hi h5)

theorem Effect.returnFromTrap (h : Effect s t) : Effect s (returnFromTrap t) := by
  rw [returnFromTrap_eq]; exact h.cpu rfl fun _ => or20_bit5 _

theorem Effect.takeTrap (ret : Word) (h : Effect s t) : Effect s (takeTrap ret t) := by
  simp only [Machine.takeTrap, readWordAt]
  have h1 := ((h.push (hi8 ret)).push (lo8 ret)).push (pushWord ret t).pushedP
  have h2 := (h1.setBit 2 true (by decide) (by decide)).setBit 3 false (by decide) (by decide)
  exact ((h2.read 0xFFFE).read 0xFFFF).cpu rfl id

theorem Effect.boot (h : Effect s t) : Effect s (boot t) := by
  rw [boot_eq]; exact h.cpu rfl id

theorem Effect.setC (b : Bool) (h : Effect s t) : Effect s (t.setC b) := h.setBit 0 b (by decide) (by decide)
theorem Effect.setI (b : Bool) (h : Effect s t) : Effect s (t.setI b) := h.setBit 2 b (by decide) (by decide)
theorem Effect.setD (b : Bool) (h : Effect s t) : Effect s (t.setD b) := h.setBit 3 b (by decide) (by decide)
theorem Effect.setV (b : Bool) (h : Effect s t) : Effect s (t.setV b) := h.setBit 6 b (by decide) (by decide)

theorem Effect.tsb (m : AddrMode) (h : Effect s t) : Effect s (tsb m t) := h.modifyMem _ _ Effect.testFlag
theorem Effect.trb (m : AddrMode) (h : Effect s t) : Effect s (trb m t) := h.modifyMem _ _ Effect.testFlag
theorem Effect.rmb (n : Nat) (lo : Byte) (h : Effect s t) : Effect s (rmb n lo t) := h.modifyMem _ _ Effect.noFlags
theorem Effect.smb (n : Nat) (lo : Byte) (h : Effect s t) : Effect s (smb n lo t) := h.modifyMem _ _ Effect.noFlags
theorem Effect.noOperation (h : Effect s t) : Effect s (noOperation t) := h

/-- Whatever an instruction does is an effect. -/
theorem exec_effect {i : Instr} (h : exec i s = .next t) : Effect s t := by
  cases i <;> (cases h; first
    | with_reducible first
      | exact Effect.noOperation .start
      | exact Effect.lda _ .start | exact Effect.ldx _ .start | exact Effect.ldy _ .start
      | exact Effect.storeOperand _ _ .start
      | exact Effect.adc _ .start | exact Effect.sbc _ .start
      | exact Effect.andA _ .start | exact Effect.oraA _ .start | exact Effect.eorA _ .start
      | exact Effect.cmp _ .start | exact Effect.cpx _ .start | exact Effect.cpy _ .start
      | exact Effect.bitTest _ .start | exact Effect.tsb _ .start | exact Effect.trb _ .start
      | exact Effect.rmb _ _ .start | exact Effect.smb _ _ .start
      | exact Effect.modifyMem _ _ Effect.leftFlags .start | exact Effect.modifyMem _ _ Effect.rightFlags .start
      | exact Effect.modifyMem _ _ Effect.countFlags .start
      | exact Effect.modifyA _ Effect.leftFlags .start | exact Effect.modifyA _ Effect.rightFlags .start
      | exact Effect.modifyA _ Effect.countFlags .start
      | exact Effect.branch _ _ .start | exact Effect.branchOnBit _ _ _ _ .start
      | exact Effect.jumpThrough _ _ .start | exact Effect.jsrTo _ .start | exact Effect.rtsBody .start
      | exact Effect.push _ .start
      | exact Effect.pullA .start | exact Effect.pullX .start | exact Effect.pullY .start | exact Effect.pullP .start
      | exact Effect.setC _ .start | exact Effect.setI _ .start | exact Effect.setD _ .start
      | exact Effect.setV _ .start
      | exact Effect.takeTrap _ .start | exact Effect.returnFromTrap .start
    | exact Effect.setNZ _ (Effect.cpu .start rfl id)
    | exact Effect.cpu .start rfl id)

/-- Fetching is an effect. -/
theorem fetch_effect (s : State) : Effect s (fetch s).state := by
  simp only [fetch]
  split
  · exact (Effect.read _ .start).cpu rfl id
  · exact ((Effect.read _ .start).read _).cpu rfl id
  · exact (((Effect.read _ .start).read _).read _).cpu rfl id

theorem Effect.trans {u : State} (h : Effect s t) (h' : Effect t u) : Effect s u := by
  induction h' with
  | start => exact h
  | read a _ ih => exact ih.read a
  | write a v _ ih => exact ih.write a v
  | cpu _ hu hp ih => exact ih.cpu hu hp

/-- Whatever a step does is an effect. -/
theorem step_effect (h : step s = .next t) : Effect s t := by
  rw [step] at h
  split at h
  · cases h; exact Effect.boot .start
  · exact (fetch_effect s).trans (exec_effect h)
  · cases h; exact .start
  · cases h; exact .start

end Sys2Proof.Machine
end

