-- ==== Sys2Proof/Laws/Devices.lean ====
section
/-! SUPPORT. What an access can do to each device, said once: the UART, the VIA and the LCD field by field, and how a bus
access reaches them. -/

namespace Sys2Proof.Machine

/-! ### The UART -/

/-- A UART read changes the status alone (R373 to R375). -/
theorem Uart.read_eq (u : Uart) (i : BitVec 2) : (u.read i).2 = { u with stat := (u.read i).2.stat } := by
  rw [Uart.read]; split <;> rfl

/-- A UART write never touches the receive side; it leaves the transmit side alone or loads all of it (R376 to R378). -/
theorem Uart.write_eq (u : Uart) (i : BitVec 2) (v : Byte) :
    (u.write i v).rdr = u.rdr ∧ (u.write i v).rsr = u.rsr ∧ (u.write i v).rxcnt = u.rxcnt ∧
      ((u.write i v).txcnt = u.txcnt ∧ (u.write i v).tsr = u.tsr ∧ (u.write i v).tdr = u.tdr ∨
        (u.write i v).txcnt = 8 ∧ (u.write i v).tsr = v ∧ (u.write i v).tdr = v) := by
  rw [Uart.write]; split <;> simp [Uart.writeData, Uart.softReset]

/-- A bit received moves the count on, and the eighth takes it to 0 (R381). -/
theorem Uart.receiveBit_rxcnt (u : Uart) (b : Bool) :
    (u.receiveBit b).rxcnt = if u.rxcnt + 1 = 8 then 0 else u.rxcnt + 1 := by
  simp only [Uart.receiveBit]
  by_cases h : u.rxcnt + 1 = 8 <;> simp only [h, if_true, if_false]

theorem Uart.receiveBit_tx (u : Uart) (b : Bool) :
    (u.receiveBit b).txcnt = u.txcnt ∧ (u.receiveBit b).tsr = u.tsr ∧ (u.receiveBit b).tdr = u.tdr := by
  simp only [Uart.receiveBit]
  by_cases h : u.rxcnt + 1 = 8 <;> simp only [h, if_true, if_false, and_self]

/-- A bit received before the eighth (R381). -/
theorem Uart.receiveBit_shift (u : Uart) (r : Byte) {k n : BitVec 4} (b : Bool) (h : k + 1 = n) (hn : n ≠ 8) :
    Uart.receiveBit { u with rsr := r, rxcnt := k } b =
      { u with rsr := (r >>> 1) ||| (if b then 0x80 else 0x00), rxcnt := n } := by
  simp only [Uart.receiveBit, h, if_neg hn]

/-- The eighth bit received (R381). -/
theorem Uart.receiveBit_eighth (u : Uart) (r : Byte) (b : Bool) :
    Uart.receiveBit { u with rsr := r, rxcnt := 7 } b =
      { u with
        rsr := (r >>> 1) ||| (if b then 0x80 else 0x00)
        rxcnt := 0
        rdr := (r >>> 1) ||| (if b then 0x80 else 0x00)
        stat := (if u.stat.getLsbD 3 then u.stat ||| 0x04 else u.stat) ||| 0x08 } := by
  have h : (7 : BitVec 4) + 1 = 8 := by decide
  simp only [Uart.receiveBit, h, if_true]

/-- A bit sent while some are left (R382). -/
theorem transmitBit_shift (s : State) (u : Uart) (r : Byte) {k n : BitVec 4} (h : k ≠ 0) (hn : k - 1 = n) :
    transmitBit { s with uart := { u with tsr := r, txcnt := k } } =
      .next (r.getLsbD 0, { s with uart := { u with tsr := r >>> 1, txcnt := n } }) := by
  simp only [transmitBit, h, if_false, Uart.transmitBit, hn]

/-! ### The VIA -/

/-- No index reaches `T2L` (R352, C6). -/
@[simp] theorem Via.write_t2l (d : Via) (i : BitVec 4) (v : Byte) : (d.write i v).t2l = d.t2l := by
  rw [Via.write]; split <;> rfl

/-! ### The LCD -/

/-- Command decode by the value of the byte (R392): its highest set bit says which command it is. -/
theorem lcdDecode_eq : ∀ d : Byte, lcdDecode d =
    if d.toNat = 0 then .none
    else if d.toNat = 1 then .clearDisplay
    else if d.toNat ≤ 3 then .returnHome
    else if d.toNat ≤ 7 then .entryMode (d.getLsbD 1) (d.getLsbD 0)
    else if d.toNat ≤ 15 then .displayOnOff (d.getLsbD 2) (d.getLsbD 1) (d.getLsbD 0)
    else if d.toNat ≤ 31 then .cursorDisplayShift (d.getLsbD 3) (d.getLsbD 2)
    else if d.toNat ≤ 63 then .functionSet (d.getLsbD 4) (d.getLsbD 3) (d.getLsbD 2)
    else if d.toNat ≤ 127 then .setCgAddress (BitVec.ofNat 7 (d.toNat - 64))
    else .setDdAddress (BitVec.ofNat 7 (d.toNat - 128)) := by
  decide +kernel

theorem Lcd.perform_stored (l : Lcd) (c : LcdCommand) :
    (l.perform c).fBusy = l.fBusy ∧ (l.perform c).fShift = l.fShift := by
  cases c with
  | cursorDisplayShift sd r => cases sd <;> exact ⟨rfl, rfl⟩
  | _ => exact ⟨rfl, rfl⟩

theorem Lcd.setCell_stored (l : Lcd) (d : Byte) :
    (l.setCell d).fBusy = l.fBusy ∧ (l.setCell d).fShift = l.fShift := by
  rw [Lcd.setCell]; split <;> exact ⟨rfl, rfl⟩

/-- No access writes `F_BUSY` or `F_SHIFT` (R51). -/
theorem Lcd.execute_stored (l : Lcd) (rs rw : Bool) (d : Byte) :
    (l.execute rs rw d).2.fBusy = l.fBusy ∧ (l.execute rs rw d).2.fShift = l.fShift := by
  cases rs <;> cases rw
  · exact Lcd.perform_stored _ _
  · exact ⟨rfl, rfl⟩
  · have h := Lcd.setCell_stored { l with dr := d } d
    simp only [Lcd.execute, Lcd.writeData]
    split
    · split <;> exact h
    · exact h
  · simp only [Lcd.execute, Lcd.readData]
    split <;> exact ⟨rfl, rfl⟩

/-! ### A bus access -/

/-- The coupling leaves the LCD alone or runs one operation of it (R410). -/
theorem lcdCouple_lcd (pinA pinB : Byte) (s : State) :
    (lcdCouple pinA pinB s).2.lcd = s.lcd ∨
      ∃ rs rw d, (lcdCouple pinA pinB s).2.lcd = (s.lcd.execute rs rw d).2 := by
  simp only [lcdCouple]
  split
  · exact .inr ⟨_, _, _, rfl⟩
  · exact .inl rfl

/-- The gate bit is 0: nothing happens, and port B's pins are as they were (R410, R413). -/
theorem lcdCouple_gateLow {pinA : Byte} (pinB : Byte) {s : State} (h : (s.via.portA pinA).getLsbD 7 = false) :
    lcdCouple pinA pinB s = (pinB, s) := by
  simp only [lcdCouple, Config.lcdEBit, h, Bool.false_eq_true, if_false]

/-- The gate bit is 1: one LCD operation with the control bits and the data of the ports (R410). -/
theorem lcdCouple_gateHigh {pinA : Byte} (pinB : Byte) {s : State} (h : (s.via.portA pinA).getLsbD 7 = true) :
    lcdCouple pinA pinB s =
      ((s.lcd.execute ((s.via.portA pinA).getLsbD 5) ((s.via.portA pinA).getLsbD 6) (s.via.portB pinB)).1.getD pinB,
        { s with lcd :=
          (s.lcd.execute ((s.via.portA pinA).getLsbD 5) ((s.via.portA pinA).getLsbD 6) (s.via.portB pinB)).2 }) := by
  simp only [lcdCouple, Config.lcdEBit, Config.lcdRsBit, Config.lcdRwBit, h, if_true]

/-- A gate bit that is latch-driven low stays low whatever the pins (R413). -/
theorem Via.portA_gateLow {d : Via} (pinA : Byte) (hd : d.ddra.getLsbD 7 = true) (ho : d.ora.getLsbD 7 = false) :
    (d.portA pinA).getLsbD 7 = false := by
  simp only [Via.portA, BitVec.getLsbD_or, BitVec.getLsbD_and, BitVec.getLsbD_not, hd, ho, Bool.false_and,
    Bool.not_true, Bool.and_false, Bool.or_false]

theorem memRead_uart_cases (a : Word) (s : State) :
    (memRead a s).2.uart = s.uart ∨ ∃ i, (memRead a s).2.uart = (s.uart.read i).2 := by
  rcases Nat.lt_or_ge a.toNat 0x4000 with h | h
  · rw [memRead_plain s (by simp only [inDeviceWindow]; omega)]; exact .inl rfl
  · rcases Nat.lt_or_ge a.toNat 0x6000 with h' | h'
    · rw [memRead_uart s h (by omega)]; exact .inr ⟨_, rfl⟩
    · rcases Nat.lt_or_ge a.toNat 0x8000 with h'' | h''
      · rw [memRead_viaLcd s h' (by omega), viaLcdRead, lcdCouple_eq]; exact .inl rfl
      · rw [memRead_plain s (by simp only [inDeviceWindow]; omega)]; exact .inl rfl

theorem memRead_lcd_cases (a : Word) (s : State) :
    (memRead a s).2.lcd = s.lcd ∨ ∃ rs rw d, (memRead a s).2.lcd = (s.lcd.execute rs rw d).2 := by
  rcases Nat.lt_or_ge a.toNat 0x6000 with h | h
  · rcases Nat.lt_or_ge a.toNat 0x4000 with h' | h'
    · rw [memRead_plain s (by simp only [inDeviceWindow]; omega)]; exact .inl rfl
    · rw [memRead_uart s h' (by omega)]; exact .inl rfl
  · rcases Nat.lt_or_ge a.toNat 0x8000 with h' | h'
    · rw [memRead_viaLcd s h (by omega)]
      exact lcdCouple_lcd _ _ { s with pinDraws := s.pinDraws + 1 }
    · rw [memRead_plain s (by simp only [inDeviceWindow]; omega)]; exact .inl rfl

theorem memWrite_uart_cases (a : Word) (v : Byte) (s : State) :
    (memWrite a v s).uart = s.uart ∨ ∃ i, (memWrite a v s).uart = s.uart.write i v := by
  rcases region_cases a with h | ⟨h, h'⟩ | ⟨h, h'⟩ | h
  · rw [memWrite_ram v s h]; exact .inl rfl
  · rw [memWrite_uart v s h h']; exact .inr ⟨_, rfl⟩
  · rw [memWrite_viaLcd v s h h', viaLcdWrite_eq]; exact .inl rfl
  · rw [memWrite_discarded v s (by omega)]; exact .inl rfl

theorem memWrite_via_cases (a : Word) (v : Byte) (s : State) :
    (memWrite a v s).via = s.via ∨ ∃ i, (memWrite a v s).via = s.via.write i v := by
  rcases region_cases a with h | ⟨h, h'⟩ | ⟨h, h'⟩ | h
  · rw [memWrite_ram v s h]; exact .inl rfl
  · rw [memWrite_uart v s h h']; exact .inl rfl
  · rw [memWrite_viaLcd v s h h', viaLcdWrite_eq]; exact .inr ⟨_, rfl⟩
  · rw [memWrite_discarded v s (by omega)]; exact .inl rfl

theorem memWrite_lcd_cases (a : Word) (v : Byte) (s : State) :
    (memWrite a v s).lcd = s.lcd ∨ ∃ rs rw d, (memWrite a v s).lcd = (s.lcd.execute rs rw d).2 := by
  rcases region_cases a with h | ⟨h, h'⟩ | ⟨h, h'⟩ | h
  · rw [memWrite_ram v s h]; exact .inl rfl
  · rw [memWrite_uart v s h h']; exact .inl rfl
  · rw [memWrite_viaLcd v s h h']
    exact lcdCouple_lcd _ _ { s with via := s.via.write _ v }
  · rw [memWrite_discarded v s (by omega)]; exact .inl rfl

/-- A bus write changes no byte of `ROM` (R69). -/
theorem memWrite_rom (a : Word) (v : Byte) (s : State) {k : Nat} (hk : 0xE000 ≤ k) :
    Memory.read (memWrite a v s).mem k = Memory.read s.mem k := by
  rcases region_cases a with h | ⟨h, h'⟩ | ⟨h, h'⟩ | h
  · rw [memWrite_ram v s h]; exact Memory.read_write_ne _ _ (by omega)
  · rw [memWrite_uart v s h h']
  · rw [memWrite_viaLcd v s h h', viaLcdWrite_eq]
  · rw [memWrite_discarded v s (by omega)]

end Sys2Proof.Machine
end

