-- ==== Sys2Proof/Laws/HostOps.lean ====
section
/-! SUPPORT. What a looped helper of the host can answer, said once: whatever every step keeps, the helper keeps. -/

namespace Sys2Proof.Machine

variable {keeps : State → Prop} {s : State}

/-- `execute(count)` (R430) answers a next state with whatever every step keeps. -/
theorem executeCount_keeps (hstep : ∀ u, keeps u → ∃ t, step u = .next t ∧ keeps t) (n : Nat) (hs : keeps s) :
    ∃ t, executeCount n s = .next t ∧ keeps t := by
  induction n generalizing s with
  | zero => exact ⟨s, rfl, hs⟩
  | succ n ih =>
    obtain ⟨t, ht, hk⟩ := hstep s hs
    obtain ⟨r, hr⟩ := ih hk
    exact ⟨r, by rw [executeCount, ht]; exact hr.1, hr.2⟩

/-- A run-until helper (R430) that its bound does not cut short ends with a step after which its condition holds. -/
theorem executeUntil_keeps (hstep : ∀ u, keeps u → ∃ t, step u = .next t ∧ keeps t) {stop : State → State → Bool}
    {n : Nat} {r : Host.Outcome State Fault Refusal} (hs : keeps s) (h : executeUntil stop n s = some r) :
    ∃ u t, step u = .next t ∧ stop u t = true ∧ r = .next t ∧ keeps t := by
  induction n generalizing s with
  | zero => cases h
  | succ n ih =>
    obtain ⟨t, ht, hk⟩ := hstep s hs
    rw [executeUntil, ht] at h
    dsimp only at h
    split at h
    · exact ⟨s, t, ht, ‹_›, (Option.some.inj h).symm, hk⟩
    · exact ih hk h

end Sys2Proof.Machine
end

