-- ==== Sys2Proof/Laws/PerInstr.lean ====
section
/-! SUPPORT. The per-instruction family `EncodingFits`: the encoding of an instruction is well-formed code, an opcode
followed by exactly the operand bytes that `SIZE` of the opcode calls for (R102, R112, R113). -/

namespace Sys2Proof.Laws.EncodingFits

/-- The instruction's encoding is as long as the size table says. -/
def Statement (i : Instr) : Prop := codeWellFormed (encode i) = true

theorem ldaIzx (lo : Byte) : Statement (.ldaIzx lo) := rfl
theorem ldaZp (lo : Byte) : Statement (.ldaZp lo) := rfl
theorem ldaImm (v : Byte) : Statement (.ldaImm v) := rfl
theorem ldaAbs (addr : Word) : Statement (.ldaAbs addr) := rfl
theorem ldaIzy (lo : Byte) : Statement (.ldaIzy lo) := rfl
theorem ldaIzp (lo : Byte) : Statement (.ldaIzp lo) := rfl
theorem ldaZpx (lo : Byte) : Statement (.ldaZpx lo) := rfl
theorem ldaAby (addr : Word) : Statement (.ldaAby addr) := rfl
theorem ldaAbx (addr : Word) : Statement (.ldaAbx addr) := rfl
theorem ldxImm (v : Byte) : Statement (.ldxImm v) := rfl
theorem ldxZp (lo : Byte) : Statement (.ldxZp lo) := rfl
theorem ldxAbs (addr : Word) : Statement (.ldxAbs addr) := rfl
theorem ldxZpy (lo : Byte) : Statement (.ldxZpy lo) := rfl
theorem ldxAby (addr : Word) : Statement (.ldxAby addr) := rfl
theorem ldyImm (v : Byte) : Statement (.ldyImm v) := rfl
theorem ldyZp (lo : Byte) : Statement (.ldyZp lo) := rfl
theorem ldyAbs (addr : Word) : Statement (.ldyAbs addr) := rfl
theorem ldyZpx (lo : Byte) : Statement (.ldyZpx lo) := rfl
theorem ldyAbx (addr : Word) : Statement (.ldyAbx addr) := rfl
theorem staIzx (lo : Byte) : Statement (.staIzx lo) := rfl
theorem staZp (lo : Byte) : Statement (.staZp lo) := rfl
theorem staAbs (addr : Word) : Statement (.staAbs addr) := rfl
theorem staIzy (lo : Byte) : Statement (.staIzy lo) := rfl
theorem staIzp (lo : Byte) : Statement (.staIzp lo) := rfl
theorem staZpx (lo : Byte) : Statement (.staZpx lo) := rfl
theorem staAby (addr : Word) : Statement (.staAby addr) := rfl
theorem staAbx (addr : Word) : Statement (.staAbx addr) := rfl
theorem stxZp (lo : Byte) : Statement (.stxZp lo) := rfl
theorem stxAbs (addr : Word) : Statement (.stxAbs addr) := rfl
theorem stxZpy (lo : Byte) : Statement (.stxZpy lo) := rfl
theorem styZp (lo : Byte) : Statement (.styZp lo) := rfl
theorem styAbs (addr : Word) : Statement (.styAbs addr) := rfl
theorem styZpx (lo : Byte) : Statement (.styZpx lo) := rfl
theorem stzZp (lo : Byte) : Statement (.stzZp lo) := rfl
theorem stzZpx (lo : Byte) : Statement (.stzZpx lo) := rfl
theorem stzAbs (addr : Word) : Statement (.stzAbs addr) := rfl
theorem stzAbx (addr : Word) : Statement (.stzAbx addr) := rfl
theorem tax : Statement (.tax) := rfl
theorem tay : Statement (.tay) := rfl
theorem txa : Statement (.txa) := rfl
theorem tya : Statement (.tya) := rfl
theorem tsx : Statement (.tsx) := rfl
theorem txs : Statement (.txs) := rfl
theorem adcIzx (lo : Byte) : Statement (.adcIzx lo) := rfl
theorem adcZp (lo : Byte) : Statement (.adcZp lo) := rfl
theorem adcImm (v : Byte) : Statement (.adcImm v) := rfl
theorem adcAbs (addr : Word) : Statement (.adcAbs addr) := rfl
theorem adcIzy (lo : Byte) : Statement (.adcIzy lo) := rfl
theorem adcIzp (lo : Byte) : Statement (.adcIzp lo) := rfl
theorem adcZpx (lo : Byte) : Statement (.adcZpx lo) := rfl
theorem adcAby (addr : Word) : Statement (.adcAby addr) := rfl
theorem adcAbx (addr : Word) : Statement (.adcAbx addr) := rfl
theorem sbcIzx (lo : Byte) : Statement (.sbcIzx lo) := rfl
theorem sbcZp (lo : Byte) : Statement (.sbcZp lo) := rfl
theorem sbcImm (v : Byte) : Statement (.sbcImm v) := rfl
theorem sbcAbs (addr : Word) : Statement (.sbcAbs addr) := rfl
theorem sbcIzy (lo : Byte) : Statement (.sbcIzy lo) := rfl
theorem sbcIzp (lo : Byte) : Statement (.sbcIzp lo) := rfl
theorem sbcZpx (lo : Byte) : Statement (.sbcZpx lo) := rfl
theorem sbcAby (addr : Word) : Statement (.sbcAby addr) := rfl
theorem sbcAbx (addr : Word) : Statement (.sbcAbx addr) := rfl
theorem andIzx (lo : Byte) : Statement (.andIzx lo) := rfl
theorem andZp (lo : Byte) : Statement (.andZp lo) := rfl
theorem andImm (v : Byte) : Statement (.andImm v) := rfl
theorem andAbs (addr : Word) : Statement (.andAbs addr) := rfl
theorem andIzy (lo : Byte) : Statement (.andIzy lo) := rfl
theorem andIzp (lo : Byte) : Statement (.andIzp lo) := rfl
theorem andZpx (lo : Byte) : Statement (.andZpx lo) := rfl
theorem andAby (addr : Word) : Statement (.andAby addr) := rfl
theorem andAbx (addr : Word) : Statement (.andAbx addr) := rfl
theorem oraIzx (lo : Byte) : Statement (.oraIzx lo) := rfl
theorem oraZp (lo : Byte) : Statement (.oraZp lo) := rfl
theorem oraImm (v : Byte) : Statement (.oraImm v) := rfl
theorem oraAbs (addr : Word) : Statement (.oraAbs addr) := rfl
theorem oraIzy (lo : Byte) : Statement (.oraIzy lo) := rfl
theorem oraIzp (lo : Byte) : Statement (.oraIzp lo) := rfl
theorem oraZpx (lo : Byte) : Statement (.oraZpx lo) := rfl
theorem oraAby (addr : Word) : Statement (.oraAby addr) := rfl
theorem oraAbx (addr : Word) : Statement (.oraAbx addr) := rfl
theorem eorIzx (lo : Byte) : Statement (.eorIzx lo) := rfl
theorem eorZp (lo : Byte) : Statement (.eorZp lo) := rfl
theorem eorImm (v : Byte) : Statement (.eorImm v) := rfl
theorem eorAbs (addr : Word) : Statement (.eorAbs addr) := rfl
theorem eorIzy (lo : Byte) : Statement (.eorIzy lo) := rfl
theorem eorIzp (lo : Byte) : Statement (.eorIzp lo) := rfl
theorem eorZpx (lo : Byte) : Statement (.eorZpx lo) := rfl
theorem eorAby (addr : Word) : Statement (.eorAby addr) := rfl
theorem eorAbx (addr : Word) : Statement (.eorAbx addr) := rfl
theorem cmpIzx (lo : Byte) : Statement (.cmpIzx lo) := rfl
theorem cmpZp (lo : Byte) : Statement (.cmpZp lo) := rfl
theorem cmpImm (v : Byte) : Statement (.cmpImm v) := rfl
theorem cmpAbs (addr : Word) : Statement (.cmpAbs addr) := rfl
theorem cmpIzy (lo : Byte) : Statement (.cmpIzy lo) := rfl
theorem cmpIzp (lo : Byte) : Statement (.cmpIzp lo) := rfl
theorem cmpZpx (lo : Byte) : Statement (.cmpZpx lo) := rfl
theorem cmpAby (addr : Word) : Statement (.cmpAby addr) := rfl
theorem cmpAbx (addr : Word) : Statement (.cmpAbx addr) := rfl
theorem cpxImm (v : Byte) : Statement (.cpxImm v) := rfl
theorem cpxZp (lo : Byte) : Statement (.cpxZp lo) := rfl
theorem cpxAbs (addr : Word) : Statement (.cpxAbs addr) := rfl
theorem cpyImm (v : Byte) : Statement (.cpyImm v) := rfl
theorem cpyZp (lo : Byte) : Statement (.cpyZp lo) := rfl
theorem cpyAbs (addr : Word) : Statement (.cpyAbs addr) := rfl
theorem bitZp (lo : Byte) : Statement (.bitZp lo) := rfl
theorem bitAbs (addr : Word) : Statement (.bitAbs addr) := rfl
theorem bitZpx (lo : Byte) : Statement (.bitZpx lo) := rfl
theorem bitAbx (addr : Word) : Statement (.bitAbx addr) := rfl
theorem bitImm (v : Byte) : Statement (.bitImm v) := rfl
theorem tsbZp (lo : Byte) : Statement (.tsbZp lo) := rfl
theorem tsbAbs (addr : Word) : Statement (.tsbAbs addr) := rfl
theorem trbZp (lo : Byte) : Statement (.trbZp lo) := rfl
theorem trbAbs (addr : Word) : Statement (.trbAbs addr) := rfl
theorem aslZp (lo : Byte) : Statement (.aslZp lo) := rfl
theorem aslAcc : Statement (.aslAcc) := rfl
theorem aslAbs (addr : Word) : Statement (.aslAbs addr) := rfl
theorem aslZpx (lo : Byte) : Statement (.aslZpx lo) := rfl
theorem aslAbx (addr : Word) : Statement (.aslAbx addr) := rfl
theorem lsrZp (lo : Byte) : Statement (.lsrZp lo) := rfl
theorem lsrAcc : Statement (.lsrAcc) := rfl
theorem lsrAbs (addr : Word) : Statement (.lsrAbs addr) := rfl
theorem lsrZpx (lo : Byte) : Statement (.lsrZpx lo) := rfl
theorem lsrAbx (addr : Word) : Statement (.lsrAbx addr) := rfl
theorem rolZp (lo : Byte) : Statement (.rolZp lo) := rfl
theorem rolAcc : Statement (.rolAcc) := rfl
theorem rolAbs (addr : Word) : Statement (.rolAbs addr) := rfl
theorem rolZpx (lo : Byte) : Statement (.rolZpx lo) := rfl
theorem rolAbx (addr : Word) : Statement (.rolAbx addr) := rfl
theorem rorZp (lo : Byte) : Statement (.rorZp lo) := rfl
theorem rorAcc : Statement (.rorAcc) := rfl
theorem rorAbs (addr : Word) : Statement (.rorAbs addr) := rfl
theorem rorZpx (lo : Byte) : Statement (.rorZpx lo) := rfl
theorem rorAbx (addr : Word) : Statement (.rorAbx addr) := rfl
theorem incAcc : Statement (.incAcc) := rfl
theorem incZp (lo : Byte) : Statement (.incZp lo) := rfl
theorem incAbs (addr : Word) : Statement (.incAbs addr) := rfl
theorem incZpx (lo : Byte) : Statement (.incZpx lo) := rfl
theorem incAbx (addr : Word) : Statement (.incAbx addr) := rfl
theorem decAcc : Statement (.decAcc) := rfl
theorem decZp (lo : Byte) : Statement (.decZp lo) := rfl
theorem decAbs (addr : Word) : Statement (.decAbs addr) := rfl
theorem decZpx (lo : Byte) : Statement (.decZpx lo) := rfl
theorem decAbx (addr : Word) : Statement (.decAbx addr) := rfl
theorem inx : Statement (.inx) := rfl
theorem iny : Statement (.iny) := rfl
theorem dex : Statement (.dex) := rfl
theorem dey : Statement (.dey) := rfl
theorem rmb0 (lo : Byte) : Statement (.rmb0 lo) := rfl
theorem rmb1 (lo : Byte) : Statement (.rmb1 lo) := rfl
theorem rmb2 (lo : Byte) : Statement (.rmb2 lo) := rfl
theorem rmb3 (lo : Byte) : Statement (.rmb3 lo) := rfl
theorem rmb4 (lo : Byte) : Statement (.rmb4 lo) := rfl
theorem rmb5 (lo : Byte) : Statement (.rmb5 lo) := rfl
theorem rmb6 (lo : Byte) : Statement (.rmb6 lo) := rfl
theorem rmb7 (lo : Byte) : Statement (.rmb7 lo) := rfl
theorem smb0 (lo : Byte) : Statement (.smb0 lo) := rfl
theorem smb1 (lo : Byte) : Statement (.smb1 lo) := rfl
theorem smb2 (lo : Byte) : Statement (.smb2 lo) := rfl
theorem smb3 (lo : Byte) : Statement (.smb3 lo) := rfl
theorem smb4 (lo : Byte) : Statement (.smb4 lo) := rfl
theorem smb5 (lo : Byte) : Statement (.smb5 lo) := rfl
theorem smb6 (lo : Byte) : Statement (.smb6 lo) := rfl
theorem smb7 (lo : Byte) : Statement (.smb7 lo) := rfl
theorem bbr0 (lo : Byte) (off : Byte) : Statement (.bbr0 lo off) := rfl
theorem bbr1 (lo : Byte) (off : Byte) : Statement (.bbr1 lo off) := rfl
theorem bbr2 (lo : Byte) (off : Byte) : Statement (.bbr2 lo off) := rfl
theorem bbr3 (lo : Byte) (off : Byte) : Statement (.bbr3 lo off) := rfl
theorem bbr4 (lo : Byte) (off : Byte) : Statement (.bbr4 lo off) := rfl
theorem bbr5 (lo : Byte) (off : Byte) : Statement (.bbr5 lo off) := rfl
theorem bbr6 (lo : Byte) (off : Byte) : Statement (.bbr6 lo off) := rfl
theorem bbr7 (lo : Byte) (off : Byte) : Statement (.bbr7 lo off) := rfl
theorem bbs0 (lo : Byte) (off : Byte) : Statement (.bbs0 lo off) := rfl
theorem bbs1 (lo : Byte) (off : Byte) : Statement (.bbs1 lo off) := rfl
theorem bbs2 (lo : Byte) (off : Byte) : Statement (.bbs2 lo off) := rfl
theorem bbs3 (lo : Byte) (off : Byte) : Statement (.bbs3 lo off) := rfl
theorem bbs4 (lo : Byte) (off : Byte) : Statement (.bbs4 lo off) := rfl
theorem bbs5 (lo : Byte) (off : Byte) : Statement (.bbs5 lo off) := rfl
theorem bbs6 (lo : Byte) (off : Byte) : Statement (.bbs6 lo off) := rfl
theorem bbs7 (lo : Byte) (off : Byte) : Statement (.bbs7 lo off) := rfl
theorem bcc (off : Byte) : Statement (.bcc off) := rfl
theorem bcs (off : Byte) : Statement (.bcs off) := rfl
theorem beq (off : Byte) : Statement (.beq off) := rfl
theorem bne (off : Byte) : Statement (.bne off) := rfl
theorem bmi (off : Byte) : Statement (.bmi off) := rfl
theorem bpl (off : Byte) : Statement (.bpl off) := rfl
theorem bvc (off : Byte) : Statement (.bvc off) := rfl
theorem bvs (off : Byte) : Statement (.bvs off) := rfl
theorem bra (off : Byte) : Statement (.bra off) := rfl
theorem jmpAbs (addr : Word) : Statement (.jmpAbs addr) := rfl
theorem jmpInd (addr : Word) : Statement (.jmpInd addr) := rfl
theorem jmpIax (addr : Word) : Statement (.jmpIax addr) := rfl
theorem jsr (addr : Word) : Statement (.jsr addr) := rfl
theorem rts : Statement (.rts) := rfl
theorem pha : Statement (.pha) := rfl
theorem phx : Statement (.phx) := rfl
theorem phy : Statement (.phy) := rfl
theorem php : Statement (.php) := rfl
theorem pla : Statement (.pla) := rfl
theorem plx : Statement (.plx) := rfl
theorem ply : Statement (.ply) := rfl
theorem plp : Statement (.plp) := rfl
theorem clc : Statement (.clc) := rfl
theorem sec : Statement (.sec) := rfl
theorem cli : Statement (.cli) := rfl
theorem sei : Statement (.sei) := rfl
theorem cld : Statement (.cld) := rfl
theorem sed : Statement (.sed) := rfl
theorem clv : Statement (.clv) := rfl
theorem nop : Statement (.nop) := rfl
theorem brk : Statement (.brk) := rfl
theorem rti : Statement (.rti) := rfl
theorem wai : Statement (.wai) := rfl
theorem stp : Statement (.stp) := rfl
theorem res02 (lo : Byte) : Statement (.res02 lo) := rfl
theorem res22 (lo : Byte) : Statement (.res22 lo) := rfl
theorem res42 (lo : Byte) : Statement (.res42 lo) := rfl
theorem res44 (lo : Byte) : Statement (.res44 lo) := rfl
theorem res54 (lo : Byte) : Statement (.res54 lo) := rfl
theorem res5C (lo : Byte) (hi : Byte) : Statement (.res5C lo hi) := rfl
theorem res62 (lo : Byte) : Statement (.res62 lo) := rfl
theorem res82 (lo : Byte) : Statement (.res82 lo) := rfl
theorem resC2 (lo : Byte) : Statement (.resC2 lo) := rfl
theorem resD4 (lo : Byte) : Statement (.resD4 lo) := rfl
theorem resDC (lo : Byte) (hi : Byte) : Statement (.resDC lo hi) := rfl
theorem resE2 (lo : Byte) : Statement (.resE2 lo) := rfl
theorem resF4 (lo : Byte) : Statement (.resF4 lo) := rfl
theorem resFC (lo : Byte) (hi : Byte) : Statement (.resFC lo hi) := rfl
theorem res03 : Statement (.res03) := rfl
theorem res0B : Statement (.res0B) := rfl
theorem res13 : Statement (.res13) := rfl
theorem res1B : Statement (.res1B) := rfl
theorem res23 : Statement (.res23) := rfl
theorem res2B : Statement (.res2B) := rfl
theorem res33 : Statement (.res33) := rfl
theorem res3B : Statement (.res3B) := rfl
theorem res43 : Statement (.res43) := rfl
theorem res4B : Statement (.res4B) := rfl
theorem res53 : Statement (.res53) := rfl
theorem res5B : Statement (.res5B) := rfl
theorem res63 : Statement (.res63) := rfl
theorem res6B : Statement (.res6B) := rfl
theorem res73 : Statement (.res73) := rfl
theorem res7B : Statement (.res7B) := rfl
theorem res83 : Statement (.res83) := rfl
theorem res8B : Statement (.res8B) := rfl
theorem res93 : Statement (.res93) := rfl
theorem res9B : Statement (.res9B) := rfl
theorem resA3 : Statement (.resA3) := rfl
theorem resAB : Statement (.resAB) := rfl
theorem resB3 : Statement (.resB3) := rfl
theorem resBB : Statement (.resBB) := rfl
theorem resC3 : Statement (.resC3) := rfl
theorem resD3 : Statement (.resD3) := rfl
theorem resE3 : Statement (.resE3) := rfl
theorem resEB : Statement (.resEB) := rfl
theorem resF3 : Statement (.resF3) := rfl
theorem resFB : Statement (.resFB) := rfl

end Sys2Proof.Laws.EncodingFits
end

