-- ==== Sys2Proof/Tests/Slice0.lean ====
section
/-! SUPPORT. Tests and witnesses. A test's expected result is the vector of 95_test_vectors.md that its docstring names
(T, DU, DV, DL, DK), or is worked out by hand from the rule it names; a witness shows a state and operands that meet all
hypotheses of the statement it names. -/

namespace Sys2Proof.Machine

set_option Elab.async false

/-- A running machine with the vectors' default registers, code at `pc`, and the listed bytes. -/
def machine (pc : Word) (code : List Byte) (cells : List Host.Cell) : State :=
  { State.reset with
    sp := 0xFF, pc := pc, st := .running
    mem := placeBytes code pc (cells.foldl (fun m c => Memory.write m c.1 c.2) []) }

/-- The state after one step. -/
def after (s : State) : State :=
  match step s with
  | .next t => t
  | _ => s

/-- The CPU registers in the vectors' order: A, X, Y, SP, P, PC. -/
def registers (s : State) : Byte × Byte × Byte × Byte × Byte × Word := (s.a, s.x, s.y, s.sp, s.p, s.pc)

/-! ### Well-formed code -/

/-- A byte string with no opcode is refused. -/
theorem test_wf_refuses_empty : codeHasOpcode [] = false ∧ codeWellFormed [] = false := by decide

/-- LDA immediate without its operand, and JSR with one of two, are refused. -/
theorem test_wf_refuses_short : codeHasItsSize [0xA9] = false ∧ codeWellFormed [0x20, 0x00] = false := by decide +kernel

/-- NOP followed by a byte that is not its own is refused. -/
theorem test_wf_refuses_long : codeHasItsSize [0xEA, 0x00] = false := by decide +kernel

theorem test_wf_accepts : codeWellFormed [0x20, 0x8B, 0xE4] = true ∧ codeWellFormed [0xEA] = true := by decide +kernel

/-! ### Decoding, by words written out from the rules -/

theorem test_decode_load_store : decode [0xA1, 0x10] = .ok (.ldaIzx 0x10, []) ∧
    decode [0xB6, 0xF0] = .ok (.ldxZpy 0xF0, []) ∧ decode [0x9E, 0x00, 0x02] = .ok (.stzAbx 0x0200, []) := ⟨rfl, rfl, rfl⟩

theorem test_decode_alu : decode [0x79, 0x34, 0x12] = .ok (.adcAby 0x1234, []) ∧
    decode [0xF2, 0x20] = .ok (.sbcIzp 0x20, []) ∧ decode [0x89, 0xC0] = .ok (.bitImm 0xC0, []) := ⟨rfl, rfl, rfl⟩

theorem test_decode_shift : decode [0x6A] = .ok (.rorAcc, []) ∧
    decode [0x5E, 0x00, 0x02] = .ok (.lsrAbx 0x0200, []) := ⟨rfl, rfl⟩

theorem test_decode_bit_families : decode [0x37, 0x12] = .ok (.rmb3 0x12, []) ∧
    decode [0xF7, 0x12] = .ok (.smb7 0x12, []) ∧ decode [0xFF, 0x12, 0xFD] = .ok (.bbs7 0x12 0xFD, []) :=
  ⟨rfl, rfl, rfl⟩

theorem test_decode_control : decode [0x6C, 0xFF, 0x02] = .ok (.jmpInd 0x02FF, []) ∧
    decode [0x20, 0x8B, 0xE4] = .ok (.jsr 0xE48B, []) ∧ decode [0x70, 0x04] = .ok (.bvs 0x04, []) := ⟨rfl, rfl, rfl⟩

theorem test_decode_system : decode [0xDB] = .ok (.stp, []) ∧ decode [0x08] = .ok (.php, []) ∧
    decode [0xFC, 0x01, 0x02] = .ok (.resFC 0x01 0x02, []) := ⟨rfl, rfl, rfl⟩

/-- A truncated instruction is refused by name. -/
theorem test_decode_truncated : decode [0x20, 0x8B] = .error (.truncated 0x20) ∧ decode [] = .error .empty := ⟨rfl, rfl⟩

theorem test_encode_word : encode (.jsr 0xE48B) = [0x20, 0x8B, 0xE4] ∧ encode (.bbr0 0x12 0x05) = [0x0F, 0x12, 0x05] := by
  decide +kernel

/-- The table's numbering: the first byte is bits 7..0. -/
theorem test_table_word : decodeTableWord 24 0xE48B20 = some (.jsr 0xE48B) ∧ decodeTableWord 8 0xEA = some .nop ∧
    decodeTableWord 8 0xA9 = some (.ldaImm 0x00) := ⟨rfl, rfl, rfl⟩

/-- The placed instruction runs as the first step after reset. -/
theorem test_with_fetch_word : registers (after (State.reset.withFetchWord 16 0xFFA2)) =
    (0x00, 0xFF, 0x00, 0x00, 0xA0, 0x0002) := by decide +kernel

/-! ### One step -/

/-- T4. -/
theorem test_lda_zpx_wraps :
    let t := after { (machine 0x0400 [0xB5, 0xF0] [(0x0010, 0x33)]) with x := 0x20 }
    registers t = (0x33, 0x20, 0x00, 0xFF, 0x20, 0x0402) := by
  decide +kernel

/-- T7. -/
theorem test_lda_izx_pointer_wraps :
    let t := after { (machine 0x0400 [0xA1, 0xFE] [(0x0000, 0x12), (0x00FF, 0x34), (0x1234, 0xAB)])
      with x := 0x01 }
    registers t = (0xAB, 0x01, 0x00, 0xFF, 0xA0, 0x0402) := by
  decide +kernel

/-- T12. -/
theorem test_ldx_zpy_uses_y :
    let t := after { (machine 0x0400 [0xB6, 0xF0] [(0x0010, 0x01)]) with y := 0x20 }
    registers t = (0x00, 0x01, 0x20, 0xFF, 0x20, 0x0402) := by
  decide +kernel

/-- T14. -/
theorem test_ldy_abx_sets_z :
    let t := after { (machine 0x0400 [0xBC, 0x00, 0x03] [(0x0305, 0x00)]) with x := 0x05, y := 0x11 }
    registers t = (0x00, 0x05, 0x00, 0xFF, 0x22, 0x0403) := by
  decide +kernel

/-- T16. -/
theorem test_sta_rom_discarded :
    let t := after { (machine 0x0400 [0x8D, 0x00, 0xE0] []) with a := 0x5A }
    registers t = (0x5A, 0x00, 0x00, 0xFF, 0x20, 0x0403) := by
  decide +kernel

/-- T18. -/
theorem test_sta_izy_carries :
    let t := after { (machine 0x0400 [0x91, 0x10] [(0x0010, 0xFF), (0x0011, 0x02)]) with a := 0x77, y := 0x01 }
    registers t = (0x77, 0x00, 0x01, 0xFF, 0x20, 0x0402) ∧ Memory.read t.mem 0x0300 = 0x77 := by
  decide +kernel

/-- T23. -/
theorem test_stx_zpy_wraps :
    let t := after { (machine 0x0400 [0x96, 0xFF] []) with x := 0x03, y := 0x02 }
    registers t = (0x00, 0x03, 0x02, 0xFF, 0x20, 0x0402) ∧ Memory.read t.mem 0x0001 = 0x03 := by
  decide +kernel

/-- T24. -/
theorem test_sty_top_of_ram :
    let t := after { (machine 0x0400 [0x8C, 0xFF, 0x3F] []) with y := 0x01 }
    registers t = (0x00, 0x00, 0x01, 0xFF, 0x20, 0x0403) ∧ Memory.read t.mem 0x3FFF = 0x01 := by
  decide +kernel

/-- T26. -/
theorem test_stz_abx :
    let t := after { (machine 0x0400 [0x9E, 0x00, 0x02] [(0x0210, 0xFF)]) with x := 0x10 }
    registers t = (0x00, 0x10, 0x00, 0xFF, 0x20, 0x0403) ∧ Memory.read t.mem 0x0210 = 0x00 := by
  decide +kernel

/-- T27. -/
theorem test_tax_sets_n :
    let t := after { (machine 0x0400 [0xAA] []) with a := 0x80 }
    registers t = (0x80, 0x80, 0x00, 0xFF, 0xA0, 0x0401) := by
  decide +kernel

/-- T28. -/
theorem test_tay_sets_z :
    let t := after { (machine 0x0400 [0xA8] []) with y := 0x55 }
    registers t = (0x00, 0x00, 0x00, 0xFF, 0x22, 0x0401) := by
  decide +kernel

/-- T29. -/
theorem test_txa :
    let t := after { (machine 0x0400 [0x8A] []) with a := 0xFF, x := 0x01 }
    registers t = (0x01, 0x01, 0x00, 0xFF, 0x20, 0x0401) := by
  decide +kernel

/-- T30. -/
theorem test_tya :
    let t := after { (machine 0x0400 [0x98] []) with y := 0xFF }
    registers t = (0xFF, 0x00, 0xFF, 0xFF, 0xA0, 0x0401) := by
  decide +kernel

/-- T31. -/
theorem test_tsx :
    let t := after { (machine 0x0400 [0xBA] []) with sp := 0xFD }
    registers t = (0x00, 0xFD, 0x00, 0xFD, 0xA0, 0x0401) := by
  decide +kernel

/-- T32. -/
theorem test_txs_no_flag :
    let t := after { (machine 0x0400 [0x9A] []) with sp := 0x80, p := 0xA0 }
    registers t = (0x00, 0x00, 0x00, 0x00, 0xA0, 0x0401) := by
  decide +kernel

/-- T36. -/
theorem test_adc_carry_and_overflow :
    let t := after { (machine 0x0400 [0x69, 0x80] []) with a := 0x80 }
    registers t = (0x00, 0x00, 0x00, 0xFF, 0x63, 0x0402) := by
  decide +kernel

/-- T38. -/
theorem test_adc_ignores_decimal :
    let t := after { (machine 0x0400 [0x69, 0x01] []) with a := 0x09, p := 0x28 }
    registers t = (0x0A, 0x00, 0x00, 0xFF, 0x28, 0x0402) := by
  decide +kernel

/-- T41. -/
theorem test_sbc_overflow :
    let t := after { (machine 0x0400 [0xE9, 0xB0] []) with a := 0x50, p := 0x21 }
    registers t = (0xA0, 0x00, 0x00, 0xFF, 0xE0, 0x0402) := by
  decide +kernel

/-- T45. -/
theorem test_sbc_borrow_in :
    let t := after (machine 0x0400 [0xE9, 0x00] [])
    registers t = (0xFF, 0x00, 0x00, 0xFF, 0xA0, 0x0402) := by
  decide +kernel

/-- T48. -/
theorem test_and_sets_z :
    let t := after { (machine 0x0400 [0x29, 0x0F] []) with a := 0xF0 }
    registers t = (0x00, 0x00, 0x00, 0xFF, 0x22, 0x0402) := by
  decide +kernel

/-- T49. -/
theorem test_ora_sets_n :
    let t := after { (machine 0x0400 [0x09, 0x80] []) with a := 0x01 }
    registers t = (0x81, 0x00, 0x00, 0xFF, 0xA0, 0x0402) := by
  decide +kernel

/-- T51. -/
theorem test_eor_keeps_c_and_v :
    let t := after { (machine 0x0400 [0x49, 0xFF] []) with a := 0x0F, p := 0x61 }
    registers t = (0xF0, 0x00, 0x00, 0xFF, 0xE1, 0x0402) := by
  decide +kernel

/-- T54. -/
theorem test_cmp_keeps_v :
    let t := after { (machine 0x0400 [0xC9, 0x01] []) with a := 0x80, p := 0x60 }
    registers t = (0x80, 0x00, 0x00, 0xFF, 0x61, 0x0402) := by
  decide +kernel

/-- T55. -/
theorem test_cmp_unsigned :
    let t := after (machine 0x0400 [0xC9, 0xFF] [])
    registers t = (0x00, 0x00, 0x00, 0xFF, 0x20, 0x0402) := by
  decide +kernel

/-- T56. -/
theorem test_cpx_equal :
    let t := after { (machine 0x0400 [0xE0, 0x10] []) with x := 0x10 }
    registers t = (0x00, 0x10, 0x00, 0xFF, 0x23, 0x0402) := by
  decide +kernel

/-- T57. -/
theorem test_cpy_less :
    let t := after (machine 0x0400 [0xC0, 0x01] [])
    registers t = (0x00, 0x00, 0x00, 0xFF, 0xA0, 0x0402) := by
  decide +kernel

/-- T59. -/
theorem test_bit_n_v_from_operand :
    let t := after { (machine 0x0400 [0x24, 0x10] [(0x0010, 0x40)]) with a := 0xFF }
    registers t = (0xFF, 0x00, 0x00, 0xFF, 0x60, 0x0402) := by
  decide +kernel

/-- T61. -/
theorem test_bit_immediate_writes_nv :
    let t := after { (machine 0x0400 [0x89, 0xC0] []) with a := 0x01 }
    registers t = (0x01, 0x00, 0x00, 0xFF, 0xE2, 0x0402) := by
  decide +kernel

/-- T64. -/
theorem test_tsb_keeps_n_v :
    let t := after { (machine 0x0400 [0x0C, 0x00, 0x02] [(0x0200, 0x80)]) with a := 0x81, p := 0xE0 }
    registers t = (0x81, 0x00, 0x00, 0xFF, 0xE0, 0x0403) ∧ Memory.read t.mem 0x0200 = 0x81 := by
  decide +kernel

/-- T66. -/
theorem test_trb_z_from_before :
    let t := after { (machine 0x0400 [0x1C, 0x00, 0x02] [(0x0200, 0x0F)]) with a := 0xF0 }
    registers t = (0xF0, 0x00, 0x00, 0xFF, 0x22, 0x0403) := by
  decide +kernel

/-- T69. -/
theorem test_asl_zp :
    let t := after (machine 0x0400 [0x06, 0x10] [(0x0010, 0xFF)])
    registers t = (0x00, 0x00, 0x00, 0xFF, 0xA1, 0x0402) ∧ Memory.read t.mem 0x0010 = 0xFE := by
  decide +kernel

/-- T72. -/
theorem test_lsr_abx :
    let t := after { (machine 0x0400 [0x5E, 0x00, 0x02] [(0x0201, 0x03)]) with x := 0x01 }
    registers t = (0x00, 0x01, 0x00, 0xFF, 0x21, 0x0403) ∧ Memory.read t.mem 0x0201 = 0x01 := by
  decide +kernel

/-- T73. -/
theorem test_rol_acc_uses_carry :
    let t := after { (machine 0x0400 [0x2A] []) with a := 0x40, p := 0x21 }
    registers t = (0x81, 0x00, 0x00, 0xFF, 0xA0, 0x0401) := by
  decide +kernel

/-- T76. -/
theorem test_rol_zp :
    let t := after { (machine 0x0400 [0x26, 0x10] [(0x0010, 0x40)]) with p := 0x21 }
    registers t = (0x00, 0x00, 0x00, 0xFF, 0xA0, 0x0402) ∧ Memory.read t.mem 0x0010 = 0x81 := by
  decide +kernel

/-- T77. -/
theorem test_ror_acc_uses_carry :
    let t := after { (machine 0x0400 [0x6A] []) with a := 0x02, p := 0x21 }
    registers t = (0x81, 0x00, 0x00, 0xFF, 0xA0, 0x0401) := by
  decide +kernel

/-- T80. -/
theorem test_ror_zp :
    let t := after { (machine 0x0400 [0x66, 0x10] [(0x0010, 0x02)]) with p := 0x21 }
    registers t = (0x00, 0x00, 0x00, 0xFF, 0xA0, 0x0402) ∧ Memory.read t.mem 0x0010 = 0x81 := by
  decide +kernel

/-- T81. -/
theorem test_inc_keeps_c :
    let t := after { (machine 0x0400 [0xE6, 0x20] [(0x0020, 0xFF)]) with p := 0x21 }
    registers t = (0x00, 0x00, 0x00, 0xFF, 0x23, 0x0402) ∧ Memory.read t.mem 0x0020 = 0x00 := by
  decide +kernel

/-- T83. -/
theorem test_dec_wraps :
    let t := after (machine 0x0400 [0x3A] [])
    registers t = (0xFF, 0x00, 0x00, 0xFF, 0xA0, 0x0401) := by
  decide +kernel

/-- T85. -/
theorem test_inx_wraps :
    let t := after { (machine 0x0400 [0xE8] []) with x := 0xFF }
    registers t = (0x00, 0x00, 0x00, 0xFF, 0x22, 0x0401) := by
  decide +kernel

/-- T86. -/
theorem test_iny :
    let t := after { (machine 0x0400 [0xC8] []) with y := 0x7F }
    registers t = (0x00, 0x00, 0x80, 0xFF, 0xA0, 0x0401) := by
  decide +kernel

/-- T87. -/
theorem test_dex_wraps :
    let t := after (machine 0x0400 [0xCA] [])
    registers t = (0x00, 0xFF, 0x00, 0xFF, 0xA0, 0x0401) := by
  decide +kernel

/-- T88. -/
theorem test_dey :
    let t := after { (machine 0x0400 [0x88] []) with y := 0x01 }
    registers t = (0x00, 0x00, 0x00, 0xFF, 0x22, 0x0401) := by
  decide +kernel

/-- T89. -/
theorem test_rmb3 :
    let t := after (machine 0x0400 [0x37, 0x12] [(0x0012, 0xFF)])
    registers t = (0x00, 0x00, 0x00, 0xFF, 0x20, 0x0402) ∧ Memory.read t.mem 0x0012 = 0xF7 := by
  decide +kernel

/-- T91. -/
theorem test_smb7 :
    let t := after (machine 0x0400 [0xF7, 0x12] [(0x0012, 0x00)])
    registers t = (0x00, 0x00, 0x00, 0xFF, 0x20, 0x0402) ∧ Memory.read t.mem 0x0012 = 0x80 := by
  decide +kernel

/-- T92. -/
theorem test_bbr0_taken :
    let t := after (machine 0x0200 [0x0F, 0x12, 0x05] [(0x0012, 0xFE)])
    registers t = (0x00, 0x00, 0x00, 0xFF, 0x20, 0x0208) := by
  decide +kernel

/-- T93. -/
theorem test_bbr0_not_taken :
    let t := after (machine 0x0200 [0x0F, 0x12, 0x05] [(0x0012, 0x01)])
    registers t = (0x00, 0x00, 0x00, 0xFF, 0x20, 0x0203) := by
  decide +kernel

/-- T94. -/
theorem test_bbs7_to_itself :
    let t := after (machine 0x0200 [0xFF, 0x12, 0xFD] [(0x0012, 0x80)])
    registers t = (0x00, 0x00, 0x00, 0xFF, 0x20, 0x0200) := by
  decide +kernel

/-- T95. -/
theorem test_bbs0_backwards :
    let t := after (machine 0x0200 [0x8F, 0x12, 0x80] [(0x0012, 0x01)])
    registers t = (0x00, 0x00, 0x00, 0xFF, 0x20, 0x0183) := by
  decide +kernel

/-- T97. -/
theorem test_bcc_not_taken :
    let t := after { (machine 0x0300 [0x90, 0x10] []) with p := 0x21 }
    registers t = (0x00, 0x00, 0x00, 0xFF, 0x21, 0x0302) := by
  decide +kernel

/-- T98. -/
theorem test_bcs :
    let t := after { (machine 0x0300 [0xB0, 0xFE] []) with p := 0x21 }
    registers t = (0x00, 0x00, 0x00, 0xFF, 0x21, 0x0300) := by
  decide +kernel

/-- T99. -/
theorem test_beq :
    let t := after { (machine 0x0300 [0xF0, 0x02] []) with p := 0x22 }
    registers t = (0x00, 0x00, 0x00, 0xFF, 0x22, 0x0304) := by
  decide +kernel

/-- T100. -/
theorem test_bne :
    let t := after (machine 0x0305 [0xD0, 0xFB] [])
    registers t = (0x00, 0x00, 0x00, 0xFF, 0x20, 0x0302) := by
  decide +kernel

/-- T101. -/
theorem test_bmi_forward_127 :
    let t := after { (machine 0x0300 [0x30, 0x7F] []) with p := 0xA0 }
    registers t = (0x00, 0x00, 0x00, 0xFF, 0xA0, 0x0381) := by
  decide +kernel

/-- T102. -/
theorem test_bpl_back_128 :
    let t := after (machine 0x0300 [0x10, 0x80] [])
    registers t = (0x00, 0x00, 0x00, 0xFF, 0x20, 0x0282) := by
  decide +kernel

/-- T103. -/
theorem test_bvc :
    let t := after (machine 0x0300 [0x50, 0x00] [])
    registers t = (0x00, 0x00, 0x00, 0xFF, 0x20, 0x0302) := by
  decide +kernel

/-- T104. -/
theorem test_bvs :
    let t := after { (machine 0x0300 [0x70, 0x04] []) with p := 0x60 }
    registers t = (0x00, 0x00, 0x00, 0xFF, 0x60, 0x0306) := by
  decide +kernel

/-- T105. -/
theorem test_bra_wraps_pc :
    let t := after (machine 0xFFFE [0x80, 0x10] [])
    registers t = (0x00, 0x00, 0x00, 0xFF, 0x20, 0x0010) := by
  decide +kernel

/-- T106. -/
theorem test_jmp_abs :
    let t := after (machine 0x0400 [0x4C, 0x00, 0xE0] [])
    registers t = (0x00, 0x00, 0x00, 0xFF, 0x20, 0xE000) := by
  decide +kernel

/-- T110. -/
theorem test_jmp_iax :
    let t := after { (machine 0x0400 [0x7C, 0x10, 0x02] [(0x0212, 0x78), (0x0213, 0x56)]) with x := 0x02 }
    registers t = (0x00, 0x02, 0x00, 0xFF, 0x20, 0x5678) := by
  decide +kernel

/-- T112. -/
theorem test_jsr_stack_wraps :
    let t := after { (machine 0x0400 [0x20, 0x00, 0x05] []) with sp := 0x00 }
    registers t = (0x00, 0x00, 0x00, 0xFE, 0x20, 0x0500) ∧ Memory.read t.mem 0x0100 = 0x04 ∧
      Memory.read t.mem 0x01FF = 0x02 := by
  decide +kernel

/-- T114. -/
theorem test_rts_wraps :
    let t := after { (machine 0x0400 [0x60] [(0x01FE, 0xFF), (0x01FF, 0xFF)]) with sp := 0xFD }
    registers t = (0x00, 0x00, 0x00, 0xFF, 0x20, 0x0000) := by
  decide +kernel

/-- T116. -/
theorem test_pha_wraps :
    let t := after { (machine 0x0400 [0x48] []) with a := 0x42, sp := 0x00 }
    registers t = (0x42, 0x00, 0x00, 0xFF, 0x20, 0x0401) ∧ Memory.read t.mem 0x0100 = 0x42 := by
  decide +kernel

/-- T117. -/
theorem test_phx :
    let t := after { (machine 0x0400 [0xDA] []) with x := 0x01, sp := 0x80 }
    registers t = (0x00, 0x01, 0x00, 0x7F, 0x20, 0x0401) ∧ Memory.read t.mem 0x0180 = 0x01 := by
  decide +kernel

/-- T118. -/
theorem test_phy :
    let t := after { (machine 0x0400 [0x5A] []) with y := 0xFF, sp := 0x00 }
    registers t = (0x00, 0x00, 0xFF, 0xFF, 0x20, 0x0401) ∧ Memory.read t.mem 0x0100 = 0xFF := by
  decide +kernel

/-- T119. -/
theorem test_php_pushes_bits_4_5 :
    let t := after { (machine 0x0400 [0x08] []) with p := 0x23 }
    registers t = (0x00, 0x00, 0x00, 0xFE, 0x23, 0x0401) ∧ Memory.read t.mem 0x01FF = 0x33 := by
  decide +kernel

/-- T121. -/
theorem test_pla_wraps :
    let t := after (machine 0x0400 [0x68] [(0x0100, 0x80)])
    registers t = (0x80, 0x00, 0x00, 0x00, 0xA0, 0x0401) := by
  decide +kernel

/-- T122. -/
theorem test_plx :
    let t := after { (machine 0x0400 [0xFA] [(0x0180, 0x90)]) with sp := 0x7F }
    registers t = (0x00, 0x90, 0x00, 0x80, 0xA0, 0x0401) := by
  decide +kernel

/-- T123. -/
theorem test_ply :
    let t := after { (machine 0x0400 [0x7A] [(0x01FE, 0x01)]) with sp := 0xFD }
    registers t = (0x00, 0x00, 0x01, 0xFE, 0x20, 0x0401) := by
  decide +kernel

/-- T124. -/
theorem test_plp :
    let t := after { (machine 0x0400 [0x28] [(0x01FF, 0xC3)]) with sp := 0xFE }
    registers t = (0x00, 0x00, 0x00, 0xFF, 0xE3, 0x0401) := by
  decide +kernel

/-- T126. -/
theorem test_clc :
    let t := after { (machine 0x0400 [0x18] []) with p := 0x21 }
    registers t = (0x00, 0x00, 0x00, 0xFF, 0x20, 0x0401) := by
  decide +kernel

/-- T127. -/
theorem test_sec :
    let t := after (machine 0x0400 [0x38] [])
    registers t = (0x00, 0x00, 0x00, 0xFF, 0x21, 0x0401) := by
  decide +kernel

/-- T128. -/
theorem test_cli :
    let t := after { (machine 0x0400 [0x58] []) with p := 0x24 }
    registers t = (0x00, 0x00, 0x00, 0xFF, 0x20, 0x0401) := by
  decide +kernel

/-- T129. -/
theorem test_sei :
    let t := after (machine 0x0400 [0x78] [])
    registers t = (0x00, 0x00, 0x00, 0xFF, 0x24, 0x0401) := by
  decide +kernel

/-- T130. -/
theorem test_cld :
    let t := after { (machine 0x0400 [0xD8] []) with p := 0x28 }
    registers t = (0x00, 0x00, 0x00, 0xFF, 0x20, 0x0401) := by
  decide +kernel

/-- T131. -/
theorem test_sed :
    let t := after (machine 0x0400 [0xF8] [])
    registers t = (0x00, 0x00, 0x00, 0xFF, 0x28, 0x0401) := by
  decide +kernel

/-- T132. -/
theorem test_clv :
    let t := after { (machine 0x0400 [0xB8] []) with p := 0x60 }
    registers t = (0x00, 0x00, 0x00, 0xFF, 0x20, 0x0401) := by
  decide +kernel

/-- T133. -/
theorem test_nop :
    let t := after (machine 0xE003 [0xEA] [])
    registers t = (0x00, 0x00, 0x00, 0xFF, 0x20, 0xE004) := by
  decide +kernel

/-- T134. -/
theorem test_reserved_three_bytes :
    let t := after (machine 0x0400 [0x5C, 0x34, 0x12] [(0x1234, 0x77)])
    registers t = (0x00, 0x00, 0x00, 0xFF, 0x20, 0x0403) := by
  decide +kernel

/-- T135. -/
theorem test_reserved_two_bytes :
    let t := after (machine 0x0400 [0x02, 0xFF] [])
    registers t = (0x00, 0x00, 0x00, 0xFF, 0x20, 0x0402) := by
  decide +kernel

/-- T136. -/
theorem test_reserved_one_byte :
    let t := after (machine 0x0400 [0x03] [])
    registers t = (0x00, 0x00, 0x00, 0xFF, 0x20, 0x0401) := by
  decide +kernel

/-- T138. -/
theorem test_brk_stack_wraps_d_cleared :
    let t := after { (machine 0x0200 [0x00] [(0xFFFE, 0x00), (0xFFFF, 0xE1)]) with sp := 0x01, p := 0x29 }
    registers t = (0x00, 0x00, 0x00, 0xFE, 0x25, 0xE100) ∧ Memory.read t.mem 0x0100 = 0x02 ∧
      Memory.read t.mem 0x0101 = 0x02 ∧ Memory.read t.mem 0x01FF = 0x39 := by
  decide +kernel

/-- T139. -/
theorem test_rti :
    let t := after { (machine 0xE100 [0x40] [(0x01FD, 0x31), (0x01FE, 0x02), (0x01FF, 0x02)])
      with sp := 0xFC, p := 0x25 }
    registers t = (0x00, 0x00, 0x00, 0xFF, 0x31, 0x0202) := by
  decide +kernel

/-- T140. -/
theorem test_wai :
    let t := after (machine 0x0300 [0xCB] [])
    registers t = (0x00, 0x00, 0x00, 0xFF, 0x20, 0x0301) ∧ t.st = .waiting := by
  decide +kernel

/-- T141. -/
theorem test_stp :
    let t := after (machine 0x0300 [0xDB] [])
    registers t = (0x00, 0x00, 0x00, 0xFF, 0x20, 0x0301) ∧ t.st = .stopped := by
  decide +kernel
/-- The boot step: `PC` from the vector, low byte first (R423). -/
theorem test_boot : (after { machine 0x0000 [] [(0xFFFC, 0x34), (0xFFFD, 0x12)] with st := .booting }).pc = 0x1234 := by
  decide +kernel

/-- T107. -/
theorem test_jmp_ind : (after (machine 0x0400 [0x6C, 0x10, 0x02] [(0x0210, 0x34), (0x0211, 0x12)])).pc = 0x1234 := by
  decide +kernel

/-- The pointer at the end of a page, for both values of the open parameter (R110). -/
theorem test_jmp_ind_page_end :
    indirectHighAddr 0x02FF = if Config.jmpIndPageWrap then 0x0200 else 0x0300 := by
  rw [indirectHighAddr, if_pos (by decide)]
  split <;> decide

/-- A fetch from the UART window performs the reads (R101, R77): the opcode is the status byte, `0x10` with bit 4, BPL,
and its operand is the command register. -/
theorem test_fetch_from_uart :
    let s := { machine 0x4001 [] [] with uart := { Uart.reset with cmd := 0x7F } }
    stepReport s = .executed 0x10 (some 0x7F) none ∧ (after s).pc = 0x4082 := by decide +kernel

/-! ### The devices -/

/-- DU4, DU5. -/
theorem test_uart_status : ({ Uart.reset with stat := 0xEF }).read 1 = (0xFF, { Uart.reset with stat := 0x0F }) ∧
    (({ Uart.reset with stat := 0xFF }).read 0).2.stat = 0xF0 ∧
    ({ Uart.reset with stat := 0xFF, cmd := 0xFF, ctrl := 0x9E }).write 1 0x55 =
      { Uart.reset with stat := 0xFB, cmd := 0xE0, ctrl := 0x9E } := by decide +kernel

/-- DU2: 0xAA's bits, least significant first. -/
theorem test_uart_receive :
    let u := [false, true, false, true, false, true, false, true].foldl Uart.receiveBit Uart.reset
    u.rdr = 0xAA ∧ u.stat = 0x08 ∧ u.rxcnt = 0 := by decide +kernel

/-- DU6: two bits of 0x41 are sent. -/
theorem test_uart_transmit :
    let u := (Uart.reset.write 0 0x41).transmitBit
    u.1 = true ∧ u.2.transmitBit.1 = false ∧ u.2.transmitBit.2.tsr = 0x10 ∧ u.2.transmitBit.2.txcnt = 6 := by
  decide +kernel

/-- R380: control byte 0x9E is 9600 bit/s from the generator, 8 data bits, 2 stop bits. -/
theorem test_uart_control :
    let u := { Uart.reset with ctrl := 0x9E }
    u.baud = .centiBaud 960000 ∧ u.internalClock = true ∧ u.wordLength = 8 ∧ u.stopBits = 2 := by decide +kernel

/-- R354's own example, and DV3. -/
theorem test_via : ({ Via.reset with orb := 0xF0, ddrb := 0x3C }).read 0 0x00 0x0F = 0x33 ∧
    ((Via.reset.write 4 0x34).write 5 0x12).t1c = 0x1234 ∧ ((Via.reset.write 8 0x78).write 9 0x56).t2c = 0x5678 := by
  decide +kernel

/-- DV6. -/
theorem test_pack : pack (0xF0 : Byte) 0x3C = 0x0C ∧ pack (0xB5 : Byte) 0xF0 = 0x0B ∧ unpack (0x0B : Byte) 0xF0 = 0xB0 := by
  decide +kernel

/-- DL1: function set, address 0, data write. -/
theorem test_lcd_write :
    let l := ((Lcd.reset.writeInstruction 0x38).writeInstruction 0x80).writeData 0x41
    l.fDl = true ∧ l.fN = true ∧ l.fF = false ∧ l.ddram[0] = 0x41 ∧ l.ac = 1 ∧ l.cursor = 1 ∧ l.dr = 0x41 := by
  decide +kernel

/-- DL2, DL4, DL5: the wraps of both banks and of an address past 79. -/
theorem test_lcd_wraps :
    ((Lcd.reset.writeInstruction 0xCF).writeData 0x42).ac = 0 ∧
    ((Lcd.reset.writeInstruction 0x7F).writeData 0x1F).ac = 0 ∧
    (Lcd.reset.writeInstruction 0xE4).cursor = 20 ∧ (Lcd.reset.writeInstruction 0xE4).readInstruction = 100 ∧
    ((Lcd.reset.writeInstruction 0xE4).writeData 0x44).ac = 21 := by decide +kernel

/-- DL8: cursor and display shift. -/
theorem test_lcd_shift :
    ((Lcd.reset.writeInstruction 0x80).writeInstruction 0x10).ac = 79 ∧
    (Lcd.reset.writeInstruction 0x18).shift = 1 ∧ (Lcd.reset.writeInstruction 0x1C).shift = 39 := by decide +kernel

/-- DK1: the gate bit raised by a write of `ORA` runs the command on port B, whatever the pins. -/
theorem test_coupling :
    let s := { State.reset with via := { Via.reset with ddra := 0xE0, ddrb := 0xFF, orb := 0x38 } }
    (viaLcdWrite 1 0x80 0x00 0x00 s).lcd.fN = true ∧ (viaLcdWrite 1 0x80 0x1F 0xFF s).lcd.fDl = true ∧
    (viaLcdWrite 1 0x00 0x1F 0xFF s).lcd = Lcd.reset := by decide +kernel

/-- R73: an offset given as a bus address and one given as an index name the same cells, and the list wraps. -/
theorem test_program : program [0xA2, 0xFF] 0xE000 State.reset = program [0xA2, 0xFF] 0x0000 State.reset ∧
    program [0xA2, 0xFF] 0x1FFF State.reset = .next { State.reset with mem := [(0xE000, 0xFF), (0xFFFF, 0xA2)] } :=
  ⟨rfl, rfl⟩

/-! ### Witnesses: states and operands that meet the hypotheses of the statements -/

theorem witness_EncodeOfDecodeIsIdentity : decode [0xA9, 0x00, 0x60] = .ok (.ldaImm 0x00, [0x60]) := rfl

/-- The last two cells of `RAM`, and the first cells of `ROM`. -/
theorem witness_StepRunsDecodedInstruction :
    let s := machine 0x3FFD [0xA9, 0x80] []
    let r := machine 0xE000 [0x20, 0x8B, 0xE4] []
    (s.st = .running ∧ ¬ inDeviceWindow s.pc ∧ ¬ inDeviceWindow (s.pc + 1) ∧ ¬ inDeviceWindow (s.pc + 2) ∧
      decode [plainByte s s.pc, plainByte s (s.pc + 1), plainByte s (s.pc + 2)] = .ok (.ldaImm 0x80, [0x00])) ∧
    (r.st = .running ∧ ¬ inDeviceWindow r.pc ∧ ¬ inDeviceWindow (r.pc + 1) ∧ ¬ inDeviceWindow (r.pc + 2) ∧
      decode [plainByte r r.pc, plainByte r (r.pc + 1), plainByte r (r.pc + 2)] = .ok (.jsr 0xE48B, [])) := by
  decide +kernel

/-- Sizes 1, 2 and 3, the last one across the top of the address space. -/
theorem witness_StepFetchesThenRuns :
    ((machine 0x0400 [0xEA] []).st = .running ∧
      Config.size (memRead 0x0400 (machine 0x0400 [0xEA] [])).1 = 1) ∧
    Config.size (memRead 0x0400 (machine 0x0400 [0xA9, 0x01] [])).1 = 2 ∧
    Config.size (memRead 0xFFFF (machine 0xFFFF [0x4C, 0x00, 0x02] [])).1 = 3 := by decide +kernel

theorem witness_BootStepLoadsResetVector : State.reset.st = .booting := rfl

theorem witness_ExecutionStateTransitions :
    (Subsystems.mk true false false false).cpu = true ∧ State.reset.st = .booting ∧ Instr.nop ≠ .wai ∧ Instr.nop ≠ .stp ∧
    { State.reset with st := .waiting }.st = .waiting ∧ { State.reset with st := .stopped }.st = .stopped ∧
    (machine 0x0400 [] []).st = .running := by decide +kernel

/-- A state that meets the invariant and steps; memory, the UART's counts at their bounds, and the LCD not at reset. -/
theorem witness_EveryStepKeepsInvariant :
    let s := { machine 0x0400 [0xA9, 0x80] [(0xFFFF, 0x01)] with
      uart := { Uart.reset with txcnt := 8, rxcnt := 7 }, lcd := Lcd.reset.writeData 0x41 }
    Inv s ∧ step s = .next (after s) := by
  refine ⟨by decide +kernel, rfl⟩

/-- Each host call that can be turned away is met where it is not, and each helper that may not end ends. -/
theorem witness_HostCallsKeepInvariant :
    let s := { machine 0x0400 [] [] with st := .waiting, uart := { Uart.reset with txcnt := 1 } }
    Inv s ∧ resume s = .next { s with st := .running } ∧
    program [0xEA] 0 s = .next { s with mem := programFrom [0xEA] 0 s.mem } ∧
    transmitBit s = .next (false, { s with uart := { s.uart with txcnt := 0 } }) ∧
    executeUntilAddress 0x0400 1 s = some (.next s) ∧
    executeUntilOpcode 0xEA 1 (machine 0x0400 [0xEA] []) = some (.next (machine 0x0400 [0xEA] [] |> after)) ∧
    Inv (machine 0x0400 [0xEA] []) := by
  refine ⟨by decide +kernel, rfl, rfl, rfl, rfl, rfl, by decide +kernel⟩

theorem witness_RomIsNeverChangedByAStep :
    let s := { machine 0x0400 [0x8D, 0x00, 0xE0] [(0xE000, 0x11)] with a := 0x5A }
    step s = .next (after s) ∧ 0xE000 ≤ (0xE000 : Nat) := ⟨rfl, by decide⟩

theorem witness_DeviceStateOnlyTheHostChanges :
    let s := { machine 0x0400 [0x8D, 0x00, 0x40] [] with a := 0x5A }
    step s = .next (after s) := rfl

theorem witness_WritersOfStoredFlags :
    Instr.sec ∉ [Instr.cli, .sei, .brk, .plp, .rti] ∧ Instr.sei ∉ [Instr.cld, .sed, .brk, .plp, .rti] ∧
    Instr.brk ∉ [Instr.plp, .rti] ∧ State.reset.p.getLsbD 5 = true := by decide

/-- The first and the last address of every region (`BusReadByRegion`, `BusWriteByRegion`). -/
theorem witness_regions :
    ((0x0000 : Word).toNat ≤ 0x3FFF ∧ (0x3FFF : Word).toNat ≤ 0x3FFF) ∧
    (0x4000 ≤ (0x4000 : Word).toNat ∧ (0x5FFF : Word).toNat ≤ 0x5FFF) ∧
    (0x6000 ≤ (0x6000 : Word).toNat ∧ (0x7FFF : Word).toNat ≤ 0x7FFF) ∧
    (0x8000 ≤ (0x8000 : Word).toNat ∧ (0xDFFF : Word).toNat ≤ 0xDFFF) ∧
    (0xE000 ≤ (0xE000 : Word).toNat ∧ 0xE000 ≤ (0xFFFF : Word).toNat) := by decide

/-- What a read gives at both ends of each region, worked out from R62. -/
theorem test_region_ends :
    let s := { machine 0x0400 [] [(0x0000, 0x11), (0x3FFF, 0x22), (0xE000, 0x33), (0xFFFF, 0x44)] with
      uart := { Uart.reset with rdr := 0x55, ctrl := 0x66 } }
    (memRead 0x0000 s).1 = 0x11 ∧ (memRead 0x3FFF s).1 = 0x22 ∧ (memRead 0x4000 s).1 = 0x55 ∧
    (memRead 0x5FFF s).1 = 0x66 ∧ (memRead 0x8000 s).1 = 0xEA ∧ (memRead 0xDFFF s).1 = 0xEA ∧
    (memRead 0xE000 s).1 = 0x33 ∧ (memRead 0xFFFF s).1 = 0x44 := by decide +kernel

/-- The VIA window's ends: index 0 and index 15, a write of each. -/
theorem test_via_window_ends :
    let s := State.reset
    (busWrite 0x00 0x00 0x6000 0x12 s).via.orb = 0x12 ∧ (busWrite 0x00 0x00 0x7FFF 0x12 s).via.ora = 0x12 := by
  decide +kernel

theorem witness_RamReadReturnsLastWrite :
    Memory.wf (machine 0x0400 [0xEA] []).mem ∧ (0x3FFF : Word).toNat ≤ 0x3FFF ∧ (0x0000 : Word) ≠ 0x3FFF ∧
    ¬ inDeviceWindow 0x0000 ∧ ¬ inDeviceWindow 0xFFFF := by decide +kernel

/-- Each list of forms has its forms; the first and the last of each are shown. -/
theorem witness_forms (b : Byte) (w : Word) :
    (Operand.imm b, Instr.ldaImm b, 0xA9) ∈ ldaForms b w ∧ (Operand.mem (.izp b), Instr.ldaIzp b, 0xB2) ∈ ldaForms b w ∧
    (Operand.mem (.aby w), Instr.ldxAby w, 0xBE) ∈ ldxForms b w ∧ (Operand.imm b, Instr.ldyImm b, 0xA0) ∈ ldyForms b w ∧
    (AddrMode.izp b, Instr.staIzp b, 0x92) ∈ staForms b w ∧ (AddrMode.zpy b, Instr.stxZpy b, 0x96) ∈ stxForms b w ∧
    (AddrMode.zpx b, Instr.styZpx b, 0x94) ∈ styForms b w ∧ (AddrMode.abx w, Instr.stzAbx w, 0x9E) ∈ stzForms b w ∧
    (Operand.imm b, Instr.adcImm b, 0x69) ∈ adcForms b w ∧ (Operand.imm b, Instr.sbcImm b, 0xE9) ∈ sbcForms b w ∧
    (Operand.imm b, Instr.andImm b, 0x29) ∈ andForms b w ∧ (Operand.imm b, Instr.oraImm b, 0x09) ∈ oraForms b w ∧
    (Operand.imm b, Instr.eorImm b, 0x49) ∈ eorForms b w ∧ (Operand.imm b, Instr.cmpImm b, 0xC9) ∈ cmpForms b w ∧
    (Operand.imm b, Instr.cpxImm b, 0xE0) ∈ cpxForms b w ∧ (Operand.imm b, Instr.cpyImm b, 0xC0) ∈ cpyForms b w := by
  simp [ldaForms, ldxForms, ldyForms, staForms, stxForms, styForms, stzForms, adcForms, sbcForms, andForms, oraForms,
    eorForms, cmpForms, cpxForms, cpyForms, nineForms]

theorem witness_more_forms (b c : Byte) (w : Word) (s : State) :
    (Operand.imm b, Instr.bitImm b, 0x89) ∈ bitForms b w ∧ (AddrMode.zp b, Instr.tsbZp b, 0x04) ∈ tsbForms b w ∧
    (AddrMode.abs w, Instr.trbAbs w, 0x1C) ∈ trbForms b w ∧ (AddrMode.zp b, Instr.aslZp b, 0x06) ∈ aslForms b w ∧
    (AddrMode.zp b, Instr.lsrZp b, 0x46) ∈ lsrForms b w ∧ (AddrMode.zp b, Instr.rolZp b, 0x26) ∈ rolForms b w ∧
    (AddrMode.zp b, Instr.rorZp b, 0x66) ∈ rorForms b w ∧ (AddrMode.zp b, Instr.incZp b, 0xE6) ∈ incForms b w ∧
    (AddrMode.zp b, Instr.decZp b, 0xC6) ∈ decForms b w ∧ (0, Instr.rmb0 b, 0x07) ∈ rmbForms b ∧
    (7, Instr.smb7 b, 0xF7) ∈ smbForms b ∧ (0, Instr.bbr0 b c, 0x0F) ∈ bbrForms b c ∧
    (7, Instr.bbs7 b c, 0xFF) ∈ bbsForms b c ∧ (Instr.bra c, 0x80, true) ∈ branchForms c s ∧
    (Instr.res03, 0x03, 1) ∈ reservedForms b c ∧ (Instr.resFC b c, 0xFC, 3) ∈ reservedForms b c := by
  simp [bitForms, tsbForms, trbForms, aslForms, lsrForms, rolForms, rorForms, incForms, decForms, fourForms, rmbForms,
    smbForms, bbrForms, bbsForms, branchForms, reservedForms]

/-- The tables of forms, with the other instructions, name all 44 reserved opcodes and every bit-indexed opcode. -/
theorem test_form_counts (b c : Byte) (w : Word) (s : State) :
    (reservedForms b c).length = 44 ∧ (rmbForms b ++ smbForms b ++ bbrForms b c ++ bbsForms b c).length = 32 ∧
    (branchForms c s).length = 9 ∧ (ldaForms b w).length = 9 ∧ (staForms b w).length = 8 := ⟨rfl, rfl, rfl, rfl, rfl⟩

/-- A state in the state of a callee or a trap handler about to return. -/
theorem witness_CallThenReturnResumes :
    let s := machine 0xE006 [] []
    Memory.wf s.mem ∧ exec (.jsr 0xE48B) s = .next (jsrTo 0xE48B s) ∧
    (jsrTo 0xE48B s).mem = [(0x01FE, 0x05), (0x01FF, 0xE0)] := by
  refine ⟨by decide +kernel, rfl, by decide +kernel⟩

theorem witness_BreakThenReturnResumes :
    let s := machine 0x0201 [] [(0xFFFF, 0xE1)]
    Memory.wf s.mem ∧ (takeTrap 0x0202 s).mem = [(0x01FD, 0x30), (0x01FE, 0x02), (0x01FF, 0x02), (0xFFFF, 0xE1)] := by
  decide +kernel

theorem witness_ProgramWritesRom :
    0x2000 < (List.replicate 0x2001 (0xEA : Byte)).length ∧ (List.replicate 0x2000 (0xEA : Byte)).length ≤ 0x2000 ∧
    Memory.wf State.reset.mem ∧ 0 < [(0xEA : Byte)].length ∧
    (∀ k, k < [(0xEA : Byte)].length → 0xE001 ≠ 0xE000 + (0 + k) % 0x2000) := by
  refine ⟨by rw [List.length_replicate]; decide, by rw [List.length_replicate], by decide, by decide, ?_⟩
  intro k hk
  have : k = 0 := by simpa using hk
  subst this
  decide

theorem witness_EightBitsReceivedAreTheByte : State.reset.uart.rxcnt = 0 := rfl

theorem witness_ViaRegistersAreStorage : 2 ≤ 2 ∧ 2 ≤ 14 ∧ 14 ≤ 14 ∧ 2 ≠ 14 := by decide

theorem witness_PortReadIsPerBit : 0 < 8 ∧ 7 < 8 := by decide

/-- Every instruction byte falls under exactly one clause of `LcdCommandEffects`; both ends of each range are met. -/
theorem witness_LcdCommandEffects : ∀ d : Byte,
    [decide (d.toNat = 0), decide (d.toNat = 1), decide (2 ≤ d.toNat ∧ d.toNat ≤ 3), decide (4 ≤ d.toNat ∧ d.toNat ≤ 7),
      decide (8 ≤ d.toNat ∧ d.toNat ≤ 15), decide (16 ≤ d.toNat ∧ d.toNat ≤ 23), decide (24 ≤ d.toNat ∧ d.toNat ≤ 31),
      decide (32 ≤ d.toNat ∧ d.toNat ≤ 63), decide (64 ≤ d.toNat ∧ d.toNat ≤ 127), decide (128 ≤ d.toNat)].count true = 1 := by
  decide +kernel

theorem witness_LcdTransfers : Lcd.reset.bank = .dd ∧ (Lcd.reset.writeInstruction 0x40).bank = .cg := by decide +kernel

/-- The gate low, and with the gate high each of the four operations; bits driven by the latch. -/
theorem witness_LcdCouplingGate :
    let pa := fun o : Byte => (o &&& (0xE0 : Byte)) ||| ((0x00 : Byte) &&& ~~~(0xE0 : Byte))
    (pa 0x7F).getLsbD 7 = false ∧
    ((pa 0x80).getLsbD 7 = true ∧ (pa 0x80).getLsbD 6 = false ∧ (pa 0x80).getLsbD 5 = false) ∧
    ((pa 0xA0).getLsbD 7 = true ∧ (pa 0xA0).getLsbD 6 = false ∧ (pa 0xA0).getLsbD 5 = true) ∧
    ((pa 0xC0).getLsbD 7 = true ∧ (pa 0xC0).getLsbD 6 = true ∧ (pa 0xC0).getLsbD 5 = false) ∧
    ((pa 0xE0).getLsbD 7 = true ∧ (pa 0xE0).getLsbD 6 = true ∧ (pa 0xE0).getLsbD 5 = true) := by decide +kernel

/-- Both ends of the window and a latch-driven gate bit that is low; a write at an index that cannot move the gate, and at
1, 3 and 15 a byte that keeps it low. -/
theorem witness_GateLowShieldsLcd :
    let d := { Via.reset with ddra := 0x80 }
    d.ddra.getLsbD 7 = true ∧ d.ora.getLsbD 7 = false ∧
    (0x6000 : Word).toNat = 0x6000 ∧ (0x7FFF : Word).toNat ≤ 0x7FFF ∧ (0x6000 : Word).toNat % 16 = 0 ∧
    (0x6001 : Word).toNat % 16 = 1 ∧ (0x7FFF : Word).toNat % 16 = 15 ∧ (0x7F : Byte).getLsbD 7 = false ∧
    (0x7FF3 : Word).toNat % 16 = 3 ∧ (0x80 : Byte).getLsbD 7 = true := by decide

/-- The last mirror of each window. -/
theorem witness_DeviceWindowsMirror : 2047 < 2048 ∧ 3 < 4 ∧ 511 < 512 ∧ 15 < 16 ∧ 0x4000 + 4 * 2047 + 3 = 0x5FFF ∧
    0x6000 + 16 * 511 + 15 = 0x7FFF := by decide

end Sys2Proof.Machine
end

section
/-! SUPPORT. What one bus access keeps of the invariant, the invariant along an effect, and the statement that every step
keeps it. -/

namespace Sys2Proof.Machine

/-- A bus read moves neither of the UART's counts (R373 to R375). -/
theorem memRead_counts (a : Word) (s : State) :
    (memRead a s).2.uart.txcnt = s.uart.txcnt ∧ (memRead a s).2.uart.rxcnt = s.uart.rxcnt := by
  rcases memRead_uart_cases a s with h | ⟨i, h⟩
  · rw [h]; exact ⟨rfl, rfl⟩
  · rw [h, Uart.read_eq]; exact ⟨rfl, rfl⟩

/-- No bus read sets the busy flag (R51). -/
@[simp] theorem memRead_fBusy (a : Word) (s : State) : (memRead a s).2.lcd.fBusy = s.lcd.fBusy := by
  rcases memRead_lcd_cases a s with h | ⟨rs, w, d, h⟩
  · rw [h]
  · rw [h]; exact (Lcd.execute_stored s.lcd rs w d).1

/-- A bus write keeps the transmit count or, with a data write, sets it to 8 (R376 to R378). -/
theorem memWrite_txcnt (a : Word) (v : Byte) (s : State) :
    (memWrite a v s).uart.txcnt = s.uart.txcnt ∨ (memWrite a v s).uart.txcnt = 8 := by
  rcases memWrite_uart_cases a v s with h | ⟨i, h⟩
  · exact .inl (congrArg Uart.txcnt h)
  · obtain ⟨-, -, -, ⟨hkept, -⟩ | ⟨hset, -⟩⟩ := Uart.write_eq s.uart i v
    · exact .inl (by rw [h, hkept])
    · exact .inr (by rw [h, hset])

/-- No bus write moves the receive count (R376). -/
@[simp] theorem memWrite_rxcnt (a : Word) (v : Byte) (s : State) : (memWrite a v s).uart.rxcnt = s.uart.rxcnt := by
  rcases memWrite_uart_cases a v s with h | ⟨i, h⟩
  · rw [h]
  · obtain ⟨-, -, hkept, -⟩ := Uart.write_eq s.uart i v
    rw [h, hkept]

/-- No bus write sets the busy flag (R51). -/
@[simp] theorem memWrite_fBusy (a : Word) (v : Byte) (s : State) : (memWrite a v s).lcd.fBusy = s.lcd.fBusy := by
  rcases memWrite_lcd_cases a v s with h | ⟨rs, w, d, h⟩
  · rw [h]
  · rw [h]; exact (Lcd.execute_stored s.lcd rs w d).1

theorem memRead_inv (a : Word) {s : State} (h : Inv s) : Inv (memRead a s).2 := by
  obtain ⟨hmem, hp, htx, hrx, hbusy⟩ := h
  obtain ⟨etx, erx⟩ := memRead_counts a s
  refine ⟨?_, ?_, etx ▸ htx, erx ▸ hrx, (memRead_fBusy a s).trans hbusy⟩
  · rw [memRead_eq]; exact hmem
  · rw [memRead_eq]; exact hp

theorem memWrite_inv (a : Word) (v : Byte) {s : State} (h : Inv s) : Inv (memWrite a v s) := by
  obtain ⟨hmem, hp, htx, hrx, hbusy⟩ := h
  have htx' : (memWrite a v s).uart.txcnt.toNat ≤ 8 := by
    rcases memWrite_txcnt a v s with e | e
    · rw [e]; exact htx
    · rw [e]; decide
  refine ⟨memWrite_wf a v s hmem, ?_, htx', ?_, ?_⟩
  · rw [memWrite_p]; exact hp
  · rw [memWrite_rxcnt]; exact hrx
  · rw [memWrite_fBusy]; exact hbusy

/-- Whatever is reached by bus accesses and changes of CPU registers that keep bit 5 of `P` set meets the invariant. -/
theorem Effect.inv {s t : State} (h : Effect s t) (hs : Inv s) : Inv t := by
  induction h with
  | start => exact hs
  | read a _ ih => exact memRead_inv a ih
  | write a v _ ih => exact memWrite_inv a v ih
  | cpu _ hu hp ih =>
    obtain ⟨hmem, h5, hdevices⟩ := ih
    rw [hu]
    exact ⟨hmem, hp h5, hdevices⟩

/-- Settles O11: a step is an effect, and every effect keeps the invariant. -/
theorem everyStepKeepsInvariant : Obligations.EveryStepKeepsInvariant :=
  fun _ _ hs hstep => (step_effect hstep).inv hs

end Sys2Proof.Machine
end

section
/-! SUPPORT. Who writes the execution state `ST` (R31, R32): of the instructions WAI and STP alone, and beside them the
boot step and the host's `reset` and `resume`. -/

namespace Sys2Proof.Machine

/-- A reset by subsystem (R420): the CPU's reset if it is selected, and each selected device at its reset values. -/
theorem resetSubsystems_eq (sel : Subsystems) (d : CpuDraws) (s : State) :
    resetSubsystems sel d s =
      { (if sel.cpu then resetCpu d s else s) with
        via := if sel.via then Via.reset else s.via
        uart := if sel.uart then Uart.reset else s.uart
        lcd := if sel.lcd then Lcd.reset else s.lcd } := by
  simp only [resetSubsystems]
  split_ifs <;> rfl

/-- The step and the report in booting (R32, R103, R423). -/
theorem step_booting {s : State} (h : s.st = .booting) :
    step s = .next { s with pc := memWord s 0xFFFC 0xFFFD, st := .running } ∧
      stepReport s = .bootJump (memWord s 0xFFFC 0xFFFD) := by
  simp only [step, stepReport, h, boot_eq, and_self]

/-- Waiting: a step does nothing and says so, and `resume` leaves it (R32, R425). -/
theorem step_resume_waiting {s : State} (h : s.st = .waiting) :
    step s = .next s ∧ stepReport s = .waiting ∧ resume s = .next { s with st := .running } := by
  simp only [step, stepReport, resume, h, and_self]

/-- Stopped: a step does nothing and says so, and `resume` leaves it (R32, R425). -/
theorem step_resume_stopped {s : State} (h : s.st = .stopped) :
    step s = .next s ∧ stepReport s = .stopped ∧ resume s = .next { s with st := .running } := by
  simp only [step, stepReport, resume, h, and_self]

theorem resume_running {s : State} (h : s.st = .running) : resume s = .next s := by
  simp only [resume, h]

theorem resume_booting {s : State} (h : s.st = .booting) : resume s = .refused .resumeWhileBooting := by
  simp only [resume, h]

/-- Every instruction but WAI and STP runs and keeps `ST` (R32): each body changes it nowhere, as the body's own law
shows, and neither do the bus accesses the body makes. -/
theorem exec_keeps_st (i : Instr) (s : State) (hwai : i ≠ .wai) (hstp : i ≠ .stp) :
    ∃ t, exec i s = .next t ∧ t.st = s.st := by
  cases i with
  | wai => exact absurd rfl hwai
  | stp => exact absurd rfl hstp
  | _ =>
    refine ⟨_, rfl, ?_⟩
    simp only [lda_eq, ldx_eq, ldy_eq, storeOperand_eq, adc, sbc, loadOperand_eq, addToA_eq, andA_eq, oraA_eq,
      eorA_eq, toA_eq, cmp_eq, cpx_eq, cpy_eq, compareReg_eq, bitTest_eq, tsb, trb, rmb, smb, modifyMem_eq, modifyA,
      leftFlags_eq, rightFlags_eq, countFlags_eq, testFlag_eq, noFlags_eq, branch_eq, branchOnBit_eq, jumpThrough_eq,
      jsrTo_eq, rtsBody_eq, push_eq, pullA_eq, pullX_eq, pullY_eq, pullP_eq, takeTrap_eq, returnFromTrap_eq,
      noOperation, State.setNZ_st, State.setC_st, State.setI_st, State.setD_st, State.setV_st,
      memWrite_st, operandAfter_st, afterRead_st]

/-- Settles O8, row by row of R32's table. -/
theorem executionStateTransitions : Obligations.ExecutionStateTransitions := by
  refine ⟨fun sel d s hcpu => ?_, fun s => step_booting, exec_keeps_st, fun s => rfl, fun s => rfl,
    fun s => step_resume_waiting, fun s => step_resume_stopped, fun s => resume_running, fun s => resume_booting⟩
  rw [resetSubsystems_eq, if_pos hcpu]
  exact ⟨rfl, rfl, rfl, rfl, rfl, rfl⟩

end Sys2Proof.Machine
end

section
/-! SUPPORT. The bus as the statements of 20_memory.md name it: reads and writes region by region (R62, R63), and the
mirrors of the two device windows (R67, R68). -/

namespace Sys2Proof.Machine

theorem plainByte_unmapped {a : Word} (s : State) (h : 0x8000 ≤ a.toNat) (h' : a.toNat ≤ 0xDFFF) :
    plainByte s a = Config.unmappedRead := if_pos ⟨h, h'⟩

/-- Settles O16, row by row of R62's table. -/
theorem busReadByRegion : Obligations.BusReadByRegion := fun a s =>
  ⟨fun hram => memRead_mem s (.inl hram),
   fun h h' => memRead_uart s h h',
   fun h h' => memRead_viaLcd s h h',
   fun h h' => by rw [memRead_plain s (by omega), plainByte_unmapped s h h'],
   fun hrom => memRead_mem s (.inr hrom)⟩

/-- Settles O17: the law of a bus write says it region by region. -/
theorem busWriteByRegion : Obligations.BusWriteByRegion := wroteByte_memWrite

/-- Settles O19: the k-th mirror of index `i` lies in the device's window, and its register index is `i`. -/
theorem deviceWindowsMirror : Obligations.DeviceWindowsMirror := by
  refine ⟨fun k i v s hk hi => ?_, fun k i v s hk hi => ?_⟩
  · have ha : (BitVec.ofNat 16 (0x4000 + 4 * k + i)).toNat = 0x4000 + 4 * k + i := Nat.mod_eq_of_lt (by omega)
    have hindex : (0x4000 + 4 * k + i) % 4 = i := by omega
    rw [memRead_uart s (by omega) (by omega), memWrite_uart v s (by omega) (by omega), ha, hindex]
    exact ⟨rfl, rfl⟩
  · have ha : (BitVec.ofNat 16 (0x6000 + 16 * k + i)).toNat = 0x6000 + 16 * k + i := Nat.mod_eq_of_lt (by omega)
    have hindex : (0x6000 + 16 * k + i) % 16 = i := by omega
    rw [memRead_viaLcd s (by omega) (by omega), memWrite_viaLcd v s (by omega) (by omega), ha, hindex]
    exact ⟨rfl, rfl⟩

end Sys2Proof.Machine
end

section
/-! SUPPORT. The host's `program` (R73, R426): what each cell of `ROM` it names reads as afterwards. -/

namespace Sys2Proof.Machine

/-- Byte `k` of data no longer than `ROM` is read at its index (R73): no later byte of the list comes to the same
cell. -/
theorem programFrom_read_getElem {data : List Byte} {i k : Nat} {m : Memory} (hm : Memory.wf m)
    (hlen : data.length ≤ 0x2000) (hk : k < data.length) :
    Memory.read (programFrom data i m) (0xE000 + (i + k) % 0x2000) = data[k] := by
  induction data generalizing i k m with
  | nil => exact absurd hk (Nat.not_lt_zero k)
  | cons b bs ih =>
    rw [List.length_cons] at hlen hk
    cases k with
    | zero =>
      rw [programFrom, programFrom_read_ne fun j hj => by omega]
      exact Memory.read_write_self _ b hm
    | succ k =>
      have hstart : Memory.wf (Memory.write m (romAddr i) b) :=
        Memory.write_wf hm (.inr (by simp only [isRom, romAddr]; omega))
      rw [programFrom, show i + (k + 1) = i + 1 + k by omega]
      exact ih hstart (by omega) (by omega)

/-- Settles O49: a list that fits is written byte by byte, a longer one is refused. -/
theorem programWritesRom : Obligations.ProgramWritesRom := by
  refine fun data off s => ⟨fun hlong => if_neg (by omega), fun hlen => ?_⟩
  exact ⟨programFrom data off s.mem, if_pos hlen,
    fun hm => ⟨programFrom_wf hm, fun k hk => programFrom_read_getElem hm hlen hk⟩,
    fun j hj => programFrom_read_ne hj⟩

end Sys2Proof.Machine
end

section
/-! SUPPORT. Fetching outside the device windows (R101): no read changes the state, so the fetch is the decoder's answer
at the three bytes from `PC`, with `PC` past the instruction. -/

namespace Sys2Proof.Machine

theorem fetch_plain {s : State} {i : Instr} {rest : List Byte} (h0 : ¬ inDeviceWindow s.pc)
    (h1 : ¬ inDeviceWindow (s.pc + 1)) (h2 : ¬ inDeviceWindow (s.pc + 2))
    (hdecode : decode [plainByte s s.pc, plainByte s (s.pc + 1), plainByte s (s.pc + 2)] = .ok (i, rest)) :
    (fetch s).instr = i ∧ (fetch s).state = { s with pc := s.pc + BitVec.ofNat 16 (encode i).length } := by
  have hcell := cellEncodes (plainByte s s.pc)
  simp only [decode] at hdecode
  simp only [fetch, memRead_plain s h0, memRead_plain s h1, memRead_plain s h2]
  generalize opcodeCell (plainByte s s.pc) = c at hcell hdecode ⊢
  cases c with
  | f1 _ | f2 _ | f3 _ =>
    obtain ⟨henc, -⟩ := hcell
    cases hdecode
    exact ⟨rfl, by rw [henc]; rfl⟩

/-- Settles O5: in the running state a step is `exec` at what the fetch leaves. -/
theorem stepRunsDecodedInstruction : Obligations.StepRunsDecodedInstruction := by
  intro s i rest hrun h0 h1 h2 hdecode
  obtain ⟨hinstr, hstate⟩ := fetch_plain h0 h1 h2 hdecode
  simp only [step, hrun, hinstr, hstate]

end Sys2Proof.Machine
end

section
/-! SUPPORT. Decoding and fetching by the opcode's cell (R101, R102): what each format of the matrix makes the decoder
answer, and what it makes the fetch part of a step read. -/

namespace Sys2Proof

theorem decode_f1 {op : Byte} {i : Instr} (rest : List Byte) (h : opcodeCell op = .f1 i) :
    decode (op :: rest) = .ok (i, rest) := by
  simp only [decode, h]

theorem decode_f2 {op : Byte} {mk : Byte → Instr} (lo : Byte) (rest : List Byte) (h : opcodeCell op = .f2 mk) :
    decode (op :: lo :: rest) = .ok (mk lo, rest) := by
  simp only [decode, h]

theorem decode_f3 {op : Byte} {mk : Byte → Byte → Instr} (lo hi : Byte) (rest : List Byte)
    (h : opcodeCell op = .f3 mk) : decode (op :: lo :: hi :: rest) = .ok (mk lo hi, rest) := by
  simp only [decode, h]

/-- An opcode and any two bytes after it decode to an instruction that encodes to the first `SIZE[op]` of them (R102,
R112, R113). -/
theorem decode_opcode (op lo hi : Byte) : ∃ (i : Instr) (rest : List Byte),
    decode [op, lo, hi] = .ok (i, rest) ∧ encode i = [op, lo, hi].take (Config.size op) := by
  have hcell := cellEncodes op
  cases hc : opcodeCell op with
  | f1 i =>
    obtain ⟨henc, hsize⟩ := hc ▸ hcell
    exact ⟨i, [lo, hi], decode_f1 _ hc, by rw [henc, hsize]; rfl⟩
  | f2 mk =>
    obtain ⟨henc, hsize⟩ := hc ▸ hcell
    exact ⟨mk lo, [hi], decode_f2 lo _ hc, by rw [henc, hsize]; rfl⟩
  | f3 mk =>
    obtain ⟨henc, hsize⟩ := hc ▸ hcell
    exact ⟨mk lo hi, [], decode_f3 lo hi _ hc, by rw [henc, hsize]; rfl⟩

end Sys2Proof

namespace Sys2Proof.Machine

/-- In running, the step runs the body of what is fetched, and reports the bytes read (R32, R101, R103). -/
theorem step_running {s : State} (h : s.st = .running) :
    step s = exec (fetch s).instr (fetch s).state ∧
      stepReport s = .executed (fetch s).op (fetch s).lo (fetch s).hi := by
  simp only [step, stepReport, h, and_self]

/-- Fetching an F1 opcode reads no further byte (R101). -/
theorem fetch_f1 {s : State} {i : Instr} (h : opcodeCell (memRead s.pc s).1 = .f1 i) :
    fetch s = ⟨(memRead s.pc s).1, none, none, i, { (memRead s.pc s).2 with pc := s.pc + 1 }⟩ := by
  simp only [fetch, h]

/-- Fetching an F2 opcode reads one operand byte, after the opcode (R101). -/
theorem fetch_f2 {s : State} {mk : Byte → Instr} (h : opcodeCell (memRead s.pc s).1 = .f2 mk) :
    let l := memRead (s.pc + 1) (memRead s.pc s).2
    fetch s = ⟨(memRead s.pc s).1, some l.1, none, mk l.1, { l.2 with pc := s.pc + 2 }⟩ := by
  simp only [fetch, h]

/-- Fetching an F3 opcode reads two operand bytes, after the opcode and in address order (R101). -/
theorem fetch_f3 {s : State} {mk : Byte → Byte → Instr} (h : opcodeCell (memRead s.pc s).1 = .f3 mk) :
    let l := memRead (s.pc + 1) (memRead s.pc s).2
    let t := memRead (s.pc + 2) l.2
    fetch s = ⟨(memRead s.pc s).1, some l.1, some t.1, mk l.1 t.1, { t.2 with pc := s.pc + 3 }⟩ := by
  simp only [fetch, h]

/-- Settles O6: the format of the opcode's cell is the size, and says what is read. -/
theorem stepFetchesThenRuns : Obligations.StepFetchesThenRuns := by
  intro s hrun o l h
  obtain ⟨hstep, hreport⟩ := step_running hrun
  have hcell := cellEncodes o.1
  cases hc : opcodeCell o.1 with
  | f1 i =>
    obtain ⟨-, hsize⟩ := hc ▸ hcell
    rw [fetch_f1 hc] at hstep hreport
    rw [hsize]
    exact ⟨fun _ => ⟨i, decode_f1 [] hc, hstep, hreport⟩, nofun, nofun, .inl rfl⟩
  | f2 mk =>
    obtain ⟨-, hsize⟩ := hc ▸ hcell
    rw [fetch_f2 hc] at hstep hreport
    rw [hsize]
    exact ⟨nofun, fun _ => ⟨mk l.1, decode_f2 l.1 [] hc, hstep, hreport⟩, nofun, .inr (.inl rfl)⟩
  | f3 mk =>
    obtain ⟨-, hsize⟩ := hc ▸ hcell
    rw [fetch_f3 hc] at hstep hreport
    rw [hsize]
    exact ⟨nofun, nofun, fun _ => ⟨mk l.1 h.1, decode_f3 l.1 h.1 [] hc, hstep, hreport⟩, .inr (.inr rfl)⟩

end Sys2Proof.Machine
end

section
/-! SUPPORT. The core's contract is total (R116): every instruction runs in every state, and the reserved ones change
nothing. -/

namespace Sys2Proof.Machine

/-- Every instruction answers a next state (R116, R320). -/
theorem exec_next (i : Instr) (s : State) : ∃ t, exec i s = .next t := by
  by_cases hwai : i = .wai
  · exact hwai ▸ ⟨_, rfl⟩
  by_cases hstp : i = .stp
  · exact hstp ▸ ⟨_, rfl⟩
  obtain ⟨t, ht, -⟩ := exec_keeps_st i s hwai hstp
  exact ⟨t, ht⟩

/-- A reserved opcode is a no-op (R113, R297). -/
theorem exec_reserved {lo hi : Byte} {f : Instr × Byte × Nat} (s : State) (hf : f ∈ reservedForms lo hi) :
    exec f.1 s = .next s := by
  have hall : (reservedForms lo hi).map (fun f => exec f.1 s) = List.replicate 44 (.next s) := rfl
  exact List.eq_of_mem_replicate (hall ▸ List.mem_map_of_mem hf)

/-- Settles O3: the opcode's cell gives the instruction, and every instruction runs. -/
theorem everyOpcodeDecodesAndRuns : Obligations.EveryOpcodeDecodesAndRuns := by
  refine ⟨fun op lo hi => ?_, fun lo hi s f hf => exec_reserved s hf⟩
  obtain ⟨i, rest, hdecode, hencode⟩ := decode_opcode op lo hi
  exact ⟨i, rest, hdecode, hencode, exec_next i⟩

/-- Settles O4: the decoder and the disassembler evaluated at each byte string. -/
theorem wordsOfEachFamilyDecode : Obligations.WordsOfEachFamilyDecode :=
  ⟨rfl, rfl, rfl, rfl, rfl, rfl, rfl, rfl, rfl⟩

end Sys2Proof.Machine
end

section
/-! SUPPORT. The three forms of JMP (R110, R260). -/

namespace Sys2Proof.Machine

/-- JMP through a pointer (R110): the second pointer byte is where the open parameter says. -/
theorem exec_jmpInd (addr : Word) (s : State) :
    exec (.jmpInd addr) s = .next (jumpThrough addr (indirectHighAddr addr) s) := rfl

/-- JMP through an indexed pointer (R110). -/
theorem exec_jmpIax (addr : Word) (s : State) :
    exec (.jmpIax addr) s = .next (jumpThrough (addr + s.x.setWidth 16) (addr + s.x.setWidth 16 + 1) s) := rfl

/-- Settles O36: an indirect form is `jumpThrough` at the two addresses that R110 gives. -/
theorem jumpForms : Obligations.JumpForms := by
  intro addr s hiAddr p s1 s2
  have hp : addr + s.x.setWidth 16 = p := by
    rw [add_byte_eq]
    exact BitVec.eq_of_toNat_eq (Nat.mod_mod _ _)
  refine ⟨⟨rfl, rfl⟩, ⟨rfl, rfl⟩, ⟨rfl, rfl⟩, rfl, ?_, ?_⟩
  · rw [exec_jmpInd, jumpThrough_eq, indirectHighAddr_eq]
  · rw [exec_jmpIax, jumpThrough_eq, hp]

end Sys2Proof.Machine
end

section
/-! SUPPORT. Loads, stores and transfers (R140 to R153): a table of forms against the encoder and `exec`, and the three
statements of 40_load_store_transfer.md. -/

namespace Sys2Proof.Machine

/-- A table of forms is read off row by row: where the column of encodings is the column of opcodes and sizes, and the
column of outcomes is the body's at each operand, every form is encoded by its opcode and runs as the body. Both columns
are evaluated (`rfl`) at a given table. -/
theorem forms_encoded_and_run {α : Type} {forms : List (α × Instr × Byte)} {s : State} (body : α → State)
    (hencode : forms.map (fun f => ((encode f.2.1).head?, (encode f.2.1).length)) =
      forms.map fun f => (some f.2.2, Config.size f.2.2))
    (hexec : forms.map (fun f => exec f.2.1 s) = forms.map fun f => .next (body f.1)) :
    ∀ f ∈ forms, EncodedBy f.2.1 f.2.2 ∧ exec f.2.1 s = .next (body f.1) := fun f hf =>
  ⟨Prod.mk.inj (List.map_inj_left.mp hencode f hf), List.map_inj_left.mp hexec f hf⟩

/-- An instruction that runs as a store (R140) makes one bus write, at the effective address of its mode. -/
theorem exec_store_writesByte {i : Instr} {m : AddrMode} {v : Byte} {s : State}
    (hexec : exec i s = .next (storeOperand m v s)) : ∃ t, exec i s = .next t ∧ WroteByte (eaOf m s) v s t :=
  ⟨memWrite (eaOf m s) v s, storeOperand_eq m v s ▸ hexec, wroteByte_memWrite (eaOf m s) v s⟩

/-- The outcome that ends in `setNZ(v)`, in the vocabulary of the statements (R27). -/
theorem next_setNZ (s : State) (v : Byte) :
    (.next (s.setNZ v) : Host.Outcome State Fault Refusal) = .next { s with p := pNZ s.p v } :=
  congrArg _ (s.setNZ_eq_pNZ v)

/-- Settles O20: each form runs as the body of its load, and the body is known over every operand. -/
theorem loadsSetRegisterNZ : Obligations.LoadsSetRegisterNZ := by
  intro b w s
  refine ⟨?lda, ?ldx, ?ldy⟩
  case lda => simpa only [lda_eq] using forms_encoded_and_run (forms := ldaForms b w) (fun o => lda o s) rfl rfl
  case ldx => simpa only [ldx_eq] using forms_encoded_and_run (forms := ldxForms b w) (fun o => ldx o s) rfl rfl
  case ldy => simpa only [ldy_eq] using forms_encoded_and_run (forms := ldyForms b w) (fun o => ldy o s) rfl rfl

/-- Settles O21: each form of each table is one `storeOperand`. -/
theorem storesWriteOneByte : Obligations.StoresWriteOneByte := by
  intro b w s
  refine ⟨fun f hf => ?sta, fun f hf => ?stx, fun f hf => ?sty, fun f hf => ?stz⟩
  case sta => exact (forms_encoded_and_run (fun m => storeOperand m s.a s) rfl rfl f hf).imp_right exec_store_writesByte
  case stx => exact (forms_encoded_and_run (fun m => storeOperand m s.x s) rfl rfl f hf).imp_right exec_store_writesByte
  case sty => exact (forms_encoded_and_run (fun m => storeOperand m s.y s) rfl rfl f hf).imp_right exec_store_writesByte
  case stz => exact (forms_encoded_and_run (fun m => storeOperand m 0x00 s) rfl rfl f hf).imp_right exec_store_writesByte

/-- Settles O22: the first five end in `setNZ` of the byte copied, TXS does not. -/
theorem transfersCopyRegister : Obligations.TransfersCopyRegister := by
  refine ⟨⟨rfl, rfl⟩, ⟨rfl, rfl⟩, ⟨rfl, rfl⟩, ⟨rfl, rfl⟩, ⟨rfl, rfl⟩, ⟨rfl, rfl⟩, fun s => ?_⟩
  exact ⟨next_setNZ { s with x := s.a } s.a, next_setNZ { s with y := s.a } s.a, next_setNZ { s with a := s.x } s.x,
    next_setNZ { s with a := s.y } s.y, next_setNZ { s with x := s.sp } s.sp, rfl⟩

end Sys2Proof.Machine
end

section
/-! SUPPORT. Addition, subtraction, logic, compare, and test-and-set bits (R171 to R182): the adder's outcome in natural
numbers, a read-modify-write read off `exec`, and the statements of 41_alu_logic_compare.md. -/

namespace Sys2Proof.Machine

/-- `addToA` over an exact sum (R170), V where the operand's sign is A's (`sameSign`) and not the result's. ADC and SBC
give `sum` and `sameSign` in their own terms. -/
theorem addToA_of_sum {m : Byte} {s : State} {sum : Nat} {sameSign : Bool}
    (hsum : s.a.toNat + m.toNat + carryNat s = sum) (hsign : (s.a.getLsbD 7 == m.getLsbD 7) = sameSign) :
    let r := BitVec.ofNat 8 (sum % 256)
    addToA m s = { s with
      a := r
      p := pWith s.p (some (r.getLsbD 7)) (some (sameSign && r.getLsbD 7 != s.a.getLsbD 7)) (some (decide (r = 0)))
        (some (decide (sum > 255))) } := by
  intro r
  have hr : (add8 s.a m s.flagC).r = r := by
    apply BitVec.eq_of_toNat_eq
    rw [add8_r_toNat, flagC_toNat, hsum, BitVec.toNat_ofNat, Nat.mod_mod]
  have hcout : (add8 s.a m s.flagC).cout = decide (sum > 255) := by rw [add8_cout, flagC_toNat, hsum]
  have hv : (add8 s.a m s.flagC).v = (sameSign && r.getLsbD 7 != s.a.getLsbD 7) := by rw [← hsign, ← hr]; rfl
  have hz : decide (r.toNat = 0) = decide (r = 0) := decide_eq_decide.mpr (BitVec.toNat_inj (y := 0))
  rw [addToA_eq, hr, hcout, hv, hz, getLsbD_seven r]

/-- ADC adds the operand itself (R171). -/
theorem adc_eq (o : Operand) (s : State) : adc o s = addToA (operandByte o s) (operandAfter o s) := by
  simp only [adc, loadOperand_eq]

/-- SBC adds the operand's complement (R172). -/
theorem sbc_eq (o : Operand) (s : State) : sbc o s = addToA (~~~operandByte o s) (operandAfter o s) := by
  simp only [sbc, loadOperand_eq]

/-- A complement has the sign of `a` exactly where the byte itself has not (R172). -/
theorem sameSign_not (a m : Byte) : (a.getLsbD 7 == (~~~m).getLsbD 7) = (a.getLsbD 7 != m.getLsbD 7) := by
  rw [BitVec.getLsbD_not]
  cases a.getLsbD 7 <;> cases m.getLsbD 7 <;> rfl

/-- The read of an operand leaves the carry. -/
theorem carryNat_operandAfter (o : Operand) (s : State) : carryNat (operandAfter o s) = carryNat s := by
  simp only [carryNat, operandAfter_p]

/-- Settles O24: the sum is of the operand, with the registers as they were before its read. -/
theorem addWithCarry : Obligations.AddWithCarry := by
  intro b w s f hf
  refine (forms_encoded_and_run (fun o => adc o s) rfl rfl f hf).imp_right fun hexec => hexec.trans (congrArg _ ?_)
  rw [adc_eq, addToA_of_sum (by rw [operandAfter_a, carryNat_operandAfter]) rfl, operandAfter_a, operandAfter_p]

/-- Settles O25: the complement is `255 - M`, and its sign is A's exactly where M's is not. -/
theorem subtractWithBorrow : Obligations.SubtractWithBorrow := by
  intro b w s f hf
  refine (forms_encoded_and_run (fun o => sbc o s) rfl rfl f hf).imp_right fun hexec => hexec.trans (congrArg _ ?_)
  rw [sbc_eq, addToA_of_sum (by rw [operandAfter_a, carryNat_operandAfter, BitVec.toNat_not]) (sameSign_not _ _),
    operandAfter_a, operandAfter_p]

/-- Settles O26: each form runs as the body of its operation, which ends in `toA` of the bitwise result. -/
theorem logicOperations : Obligations.LogicOperations := by
  intro b w s
  refine ⟨?and, ?ora, ?eor⟩
  case and =>
    simpa only [andA_eq, toA_eq, operandAfter_p] using
      forms_encoded_and_run (forms := andForms b w) (fun o => andA o s) rfl rfl
  case ora =>
    simpa only [oraA_eq, toA_eq, operandAfter_p] using
      forms_encoded_and_run (forms := oraForms b w) (fun o => oraA o s) rfl rfl
  case eor =>
    simpa only [eorA_eq, toA_eq, operandAfter_p] using
      forms_encoded_and_run (forms := eorForms b w) (fun o => eorA o s) rfl rfl

/-- Settles O27: each form runs as the compare of its register, and a compare is exact. -/
theorem compareOperations : Obligations.CompareOperations := by
  intro b w s
  refine ⟨?cmp, ?cpx, ?cpy⟩
  case cmp =>
    simpa only [cmp_eq, compareReg_eq, operandAfter_p] using
      forms_encoded_and_run (forms := cmpForms b w) (fun o => cmp o s) rfl rfl
  case cpx =>
    simpa only [cpx_eq, compareReg_eq, operandAfter_p] using
      forms_encoded_and_run (forms := cpxForms b w) (fun o => cpx o s) rfl rfl
  case cpy =>
    simpa only [cpy_eq, compareReg_eq, operandAfter_p] using
      forms_encoded_and_run (forms := cpyForms b w) (fun o => cpy o s) rfl rfl

/-- An instruction that runs as a read-modify-write (R200) whose flag part touches `P` alone modifies one byte. -/
theorem modifiesByte_of_exec {i : Instr} {m : AddrMode} {f : Byte → Byte} {flags : Byte → Byte → State → State}
    {s : State} (g : Byte → Byte) (hexec : exec i s = .next (modifyMem m f flags s))
    (hflags : ∀ u : State, u.a = s.a →
      flags (byteAt (eaOf m s) s) (f (byteAt (eaOf m s) s)) u = { u with p := g u.p }) :
    ModifiesByte m i (f (byteAt (eaOf m s) s)) (g s.p) s :=
  ⟨modifyMem m f flags s, hexec, modifyMem_wrote m f flags g s hflags⟩

/-- A read-modify-write with the flag of TSB and TRB (R181, R182) writes Z alone, from the byte before the write. -/
theorem modifiesByte_of_testFlag {i : Instr} {m : AddrMode} {f : Byte → Byte} {s : State}
    (hexec : exec i s = .next (modifyMem m f testFlag s)) :
    ModifiesByte m i (f (byteAt (eaOf m s) s))
      (pWith s.p none none (some (decide (s.a &&& byteAt (eaOf m s) s = 0))) none) s :=
  modifiesByte_of_exec (fun p => pWith p none none (some (decide (s.a &&& byteAt (eaOf m s) s = 0))) none) hexec
    fun u hu => by rw [testFlag_eq, hu]

/-- Settles O29: each form runs as the read-modify-write of its operation, with the one flag of both. -/
theorem testAndSetResetBits : Obligations.TestAndSetResetBits := by
  intro b w s
  refine ⟨fun f hf => ?tsb, fun f hf => ?trb⟩
  case tsb => exact (forms_encoded_and_run (fun m => tsb m s) rfl rfl f hf).imp_right modifiesByte_of_testFlag
  case trb => exact (forms_encoded_and_run (fun m => trb m s) rfl rfl f hf).imp_right modifiesByte_of_testFlag

end Sys2Proof.Machine
end

section
/-! SUPPORT. Shifts, rotates, increments and decrements (R200 to R210): what the accumulator and the memory forms make
of any byte function, by the flags they write, and the statements of 42_shift_incdec.md. -/

namespace Sys2Proof.Machine

/-- A shift or rotate of the accumulator (R200): `f`'s result in A, N and Z from it, C as `carry` gives it from the byte
before. -/
theorem next_modifyA_of_carry {flags : Byte → Byte → State → State} {carry : Byte → Bool}
    (hflags : ∀ v r u, flags v r u = { u with p := pNZC u.p r (carry v) }) (f : Byte → Byte) (s : State) :
    (.next (modifyA f flags s) : Host.Outcome State Fault Refusal) =
      .next { s with a := f s.a, p := pNZC s.p (f s.a) (carry s.a) } :=
  congrArg _ (hflags s.a (f s.a) { s with a := f s.a })

/-- A shift or rotate of a memory byte (R200): `f`'s result at the byte's address, and the flags of the accumulator's
form. -/
theorem modifiesByte_of_carry {flags : Byte → Byte → State → State} {carry : Byte → Bool}
    (hflags : ∀ v r u, flags v r u = { u with p := pNZC u.p r (carry v) }) {i : Instr} {m : AddrMode}
    {f : Byte → Byte} {s : State} (hexec : exec i s = .next (modifyMem m f flags s)) :
    let v := byteAt (eaOf m s) s
    ModifiesByte m i (f v) (pNZC s.p (f v) (carry v)) s :=
  modifiesByte_of_exec (fun p => pNZC p (f (byteAt (eaOf m s) s)) (carry (byteAt (eaOf m s) s))) hexec
    fun u _ => hflags _ _ u

/-- An increment or decrement of the accumulator writes N and Z alone (R205, R206). -/
theorem next_modifyA_of_countFlags (f : Byte → Byte) (s : State) :
    (.next (modifyA f countFlags s) : Host.Outcome State Fault Refusal) =
      .next { s with a := f s.a, p := pNZ s.p (f s.a) } :=
  next_setNZ { s with a := f s.a } (f s.a)

/-- An increment or decrement of a memory byte writes N and Z alone (R205, R206). -/
theorem modifiesByte_of_countFlags {i : Instr} {m : AddrMode} {f : Byte → Byte} {s : State}
    (hexec : exec i s = .next (modifyMem m f countFlags s)) :
    let r := f (byteAt (eaOf m s) s)
    ModifiesByte m i r (pNZ s.p r) s :=
  modifiesByte_of_exec (fun p => pNZ p (f (byteAt (eaOf m s) s))) hexec fun u _ => countFlags_eq _ _ u

/-- Settles O30: the four functions of the statement are the model's; ASL and ROL take C from bit 7, LSR and ROR from
bit 0. -/
theorem shiftsAndRotates : Obligations.ShiftsAndRotates := by
  refine ⟨⟨⟨rfl, rfl⟩, ⟨rfl, rfl⟩, ⟨rfl, rfl⟩, ⟨rfl, rfl⟩⟩, fun s => ?_⟩
  intro asl lsr rol ror high low
  have hasl : asl = aslByte := funext fun v => (aslByte_eq v).symm
  have hlsr : lsr = lsrByte := funext fun v => (lsrByte_eq v).symm
  have hrol : rol = rolByte s.flagC := funext fun v => by rw [rolByte_eq, flagC_toNat]
  have hror : ror = rorByte s.flagC := funext fun v => by rw [rorByte_eq, flagC_toNat]
  rw [hasl, hlsr, hrol, hror]
  refine ⟨next_modifyA_of_carry leftFlags_eq aslByte s, next_modifyA_of_carry rightFlags_eq lsrByte s,
    next_modifyA_of_carry leftFlags_eq (rolByte s.flagC) s, next_modifyA_of_carry rightFlags_eq (rorByte s.flagC) s,
    fun b w => ⟨fun f hf => ?asl, fun f hf => ?lsr, fun f hf => ?rol, fun f hf => ?ror⟩⟩
  case asl =>
    exact (forms_encoded_and_run (fun m => modifyMem m aslByte leftFlags s) rfl rfl f hf).imp_right
      (modifiesByte_of_carry leftFlags_eq)
  case lsr =>
    exact (forms_encoded_and_run (fun m => modifyMem m lsrByte rightFlags s) rfl rfl f hf).imp_right
      (modifiesByte_of_carry rightFlags_eq)
  case rol =>
    exact (forms_encoded_and_run (fun m => modifyMem m (rolByte s.flagC) leftFlags s) rfl rfl f hf).imp_right
      (modifiesByte_of_carry leftFlags_eq)
  case ror =>
    exact (forms_encoded_and_run (fun m => modifyMem m (rorByte s.flagC) rightFlags s) rfl rfl f hf).imp_right
      (modifiesByte_of_carry rightFlags_eq)

/-- Settles O31: the two sums are `incByte` and `decByte`, and each form is one modification that ends in
`countFlags`. -/
theorem incrementAndDecrement : Obligations.IncrementAndDecrement := by
  refine ⟨⟨rfl, rfl⟩, ⟨rfl, rfl⟩, fun b w s => ?_⟩
  simp only [← incByte_eq, ← decByte_eq]
  refine ⟨next_modifyA_of_countFlags incByte s, next_modifyA_of_countFlags decByte s,
    fun f hf => ?inc, fun f hf => ?dec⟩
  case inc =>
    exact (forms_encoded_and_run (fun m => modifyMem m incByte countFlags s) rfl rfl f hf).imp_right
      modifiesByte_of_countFlags
  case dec =>
    exact (forms_encoded_and_run (fun m => modifyMem m decByte countFlags s) rfl rfl f hf).imp_right
      modifiesByte_of_countFlags

/-- Settles O32: the four end in `setNZ` of the register's new value. -/
theorem indexIncrementAndDecrement : Obligations.IndexIncrementAndDecrement := by
  refine ⟨⟨rfl, rfl⟩, ⟨rfl, rfl⟩, ⟨rfl, rfl⟩, ⟨rfl, rfl⟩, fun s => ?_⟩
  simp only [← incByte_eq, ← decByte_eq]
  exact ⟨next_setNZ { s with x := incByte s.x } (incByte s.x), next_setNZ { s with y := incByte s.y } (incByte s.y),
    next_setNZ { s with x := decByte s.x } (decByte s.x), next_setNZ { s with y := decByte s.y } (decByte s.y)⟩

end Sys2Proof.Machine
end

section
/-! SUPPORT. The bit-indexed families (R231 to R234): the mask of bit `n`, the memory an RMBn or SMBn leaves, and the
statements of 43_bit_ops.md. -/

namespace Sys2Proof.Machine

/-- The mask of bit `n` (R231, R232) is the power of two of the statements. -/
theorem bitMask_eq (n : Nat) : (1#8 <<< n : Byte) = BitVec.ofNat 8 (2 ^ n) := by
  apply BitVec.eq_of_toNat_eq
  rw [← BitVec.twoPow_eq, BitVec.toNat_twoPow, BitVec.toNat_ofNat]

/-- An instruction that runs as a flagless change of a zero-page byte leaves a memory that differs in that byte alone,
and the rest of the state as it was. -/
theorem memChanged_of_modifyMem_zp {i : Instr} {lo : Byte} {f : Byte → Byte} {s : State}
    (hexec : exec i s = .next (modifyMem (.zp lo) f noFlags s)) :
    ∃ m, exec i s = .next { s with mem := m } ∧
      MemChanged s.mem [(lo.toNat, f (Memory.read s.mem lo.toNat))] m := by
  have hram : isRam lo.toNat := by
    have hlo := lo.isLt
    simp only [isRam]
    omega
  exact ⟨Memory.write s.mem lo.toNat (f (Memory.read s.mem lo.toNat)), modifyMem_zp_noFlags lo f s ▸ hexec,
    MemChanged.of_write s.mem _ (.inl hram)⟩

/-- Settles O33: each form of index `n` runs as `rmb n` or `smb n`, a flagless change of the zero-page byte by the mask
of bit `n`. -/
theorem resetAndSetMemoryBit : Obligations.ResetAndSetMemoryBit := by
  intro lo s
  simp only [← bitMask_eq]
  refine ⟨fun f hf => ?rmb, fun f hf => ?smb⟩
  case rmb =>
    exact (forms_encoded_and_run (fun n => rmb n lo s) rfl rfl f hf).imp_right
      (memChanged_of_modifyMem_zp (f := fun v => v &&& ~~~(1#8 <<< f.1)))
  case smb =>
    exact (forms_encoded_and_run (fun n => smb n lo s) rfl rfl f hf).imp_right
      (memChanged_of_modifyMem_zp (f := fun v => v ||| 1#8 <<< f.1))

/-- Settles O34: each form of index `n` runs as `branchOnBit n`, on a clear bit for BBR and on a set bit for BBS. -/
theorem branchOnMemoryBit : Obligations.BranchOnMemoryBit := by
  intro lo off s
  refine ⟨?bbr, ?bbs⟩
  case bbr =>
    simpa only [branchOnBit_eq] using
      forms_encoded_and_run (forms := bbrForms lo off) (fun n => branchOnBit n false lo off s) rfl rfl
  case bbs =>
    simpa only [branchOnBit_eq] using
      forms_encoded_and_run (forms := bbsForms lo off) (fun n => branchOnBit n true lo off s) rfl rfl

end Sys2Proof.Machine
end

section
/-! SUPPORT. The conditional branches and BRA (R250 to R259). -/

namespace Sys2Proof.Machine

/-- Settles O35: each form runs as `branch` on the flag of its row, and `branch` changes `PC` alone. -/
theorem branchesChangeOnlyPC : Obligations.BranchesChangeOnlyPC := by
  intro off s f hf
  have hrow : (f.2.2, f.1, f.2.1) ∈ (branchForms off s).map (fun f => (f.2.2, f.1, f.2.1)) := List.mem_map_of_mem hf
  simpa only [branch_eq] using forms_encoded_and_run (fun taken => branch taken off s) rfl rfl _ hrow

end Sys2Proof.Machine
end

section
/-! SUPPORT. The trap and its return, the flag instructions, the no-ops, WAI and STP (R288 to R304). -/

namespace Sys2Proof.Machine

/-- BRK's trap pushes the address one past the next instruction's (R300). -/
theorem exec_brk (s : State) : exec .brk s = .next (takeTrap (s.pc + 1) s) := rfl

/-- RTI is the return from the trap (R301). -/
theorem exec_rti (s : State) : exec .rti s = .next (returnFromTrap s) := rfl

/-- The trap sets I and clears D (R300): the two masks of the statements. -/
theorem withBit_trap (p : Byte) : withBit (withBit p 2 true) 3 false = (p ||| 0x04) &&& 0xF7 := rfl

/-- Settles O44: the trap's three bytes go to three different cells, `SP` being taken modulo 256. -/
theorem breakTakesTheTrap : Obligations.BreakTakesTheTrap := by
  refine ⟨⟨rfl, rfl⟩, fun s => ?_⟩
  simp only [exec_brk, takeTrap_eq, withBit_trap, ← hi8_eq, ← lo8_eq]
  have h01 : s.sp ≠ s.sp - 1 := by bv_omega
  have h02 : s.sp ≠ s.sp - 2 := by bv_omega
  have h12 : s.sp - 1 ≠ s.sp - 2 := by bv_omega
  exact ⟨_, rfl, MemChanged.stack3 s.mem _ _ _ h01 h02 h12⟩

/-- Settles O45: the law of the return from a trap. -/
theorem returnFromInterrupt : Obligations.ReturnFromInterrupt :=
  ⟨⟨rfl, rfl⟩, fun s => by rw [exec_rti, returnFromTrap_eq]⟩

/-- Settles O42: each runs as `withBit` on its flag's bit, whose mask is evaluated. -/
theorem flagInstructions : Obligations.FlagInstructions :=
  ⟨⟨rfl, rfl⟩, ⟨rfl, rfl⟩, ⟨rfl, rfl⟩, ⟨rfl, rfl⟩, ⟨rfl, rfl⟩, ⟨rfl, rfl⟩, ⟨rfl, rfl⟩,
    fun _ => ⟨rfl, rfl, rfl, rfl, rfl, rfl, rfl⟩⟩

/-- A reserved opcode is encoded by itself and as many operand bytes as the size table gives (R113). -/
theorem encode_reserved {lo hi : Byte} {f : Instr × Byte × Nat} (hf : f ∈ reservedForms lo hi) :
    encode f.1 = [f.2.1, lo, hi].take f.2.2 ∧ Config.size f.2.1 = f.2.2 := by
  have hcolumns : (reservedForms lo hi).map (fun f => (encode f.1, Config.size f.2.1)) =
      (reservedForms lo hi).map fun f => ([f.2.1, lo, hi].take f.2.2, f.2.2) := rfl
  exact Prod.mk.inj (List.map_inj_left.mp hcolumns f hf)

/-- Settles O43: the columns of the reserved opcodes' encodings and outcomes. -/
theorem noOperations : Obligations.NoOperations := by
  refine ⟨⟨rfl, rfl⟩, fun s => rfl, fun lo hi s f hf => ?_⟩
  obtain ⟨hencode, hsize⟩ := encode_reserved hf
  exact ⟨hencode, hsize, exec_reserved s hf⟩

/-- Settles O47: what a step and `resume` do in waiting and in stopped holds of the states WAI and STP leave. -/
theorem waitAndStop : Obligations.WaitAndStop := by
  refine ⟨⟨rfl, rfl⟩, ⟨rfl, rfl⟩, fun s => ?_⟩
  intro w h
  obtain ⟨hwStep, hwReport, hwResume⟩ := step_resume_waiting (s := w) rfl
  obtain ⟨hhStep, hhReport, hhResume⟩ := step_resume_stopped (s := h) rfl
  exact ⟨rfl, hwStep, hwReport, hwResume, rfl, hhStep, hhReport, hhResume⟩

end Sys2Proof.Machine
end

section
/-! SUPPORT. The contract of the step is total (R320). -/

namespace Sys2Proof.Machine

/-- Settles O9: by the execution state, each of the four kinds of step answers a next state. -/
theorem everyStepHasNextState : Obligations.EveryStepHasNextState := by
  intro s
  cases hst : s.st with
  | booting => exact ⟨_, (step_booting hst).1⟩
  | running =>
    obtain ⟨t, ht⟩ := exec_next (fetch s).instr (fetch s).state
    exact ⟨t, (step_running hst).1.trans ht⟩
  | waiting => exact ⟨s, (step_resume_waiting hst).1⟩
  | stopped => exact ⟨s, (step_resume_stopped hst).1⟩

end Sys2Proof.Machine
end

section
/-! SUPPORT. The UART (R373 to R382): its four indices, and a byte through each shift register, bit by bit. -/

namespace Sys2Proof.Machine

/-- Settles O50: the rows of the UART's read map. -/
theorem uartReadSideEffects : Obligations.UartReadSideEffects := fun _ => ⟨rfl, rfl, rfl, rfl⟩

/-- Settles O51: the rows of the UART's write map. -/
theorem uartWriteEffects : Obligations.UartWriteEffects := fun _ _ => ⟨rfl, rfl, rfl, rfl⟩

/-! ### The bits of a word -/

@[simp] theorem length_bitsOf {w : Nat} (v : BitVec w) : (bitsOf v).length = w := List.length_ofFn

@[simp] theorem getElem_bitsOf {w : Nat} (v : BitVec w) (i : Nat) (h : i < (bitsOf v).length) :
    (bitsOf v)[i] = v.getLsbD i := List.getElem_ofFn h

theorem bitsOf_injective {w : Nat} {u v : BitVec w} (h : bitsOf u = bitsOf v) : u = v := by
  refine BitVec.eq_of_getLsbD_eq fun i hi => ?_
  rw [← getElem_bitsOf u i (by simpa using hi), ← getElem_bitsOf v i (by simpa using hi)]
  simp only [h]

/-! ### Receiving -/

/-- The receive shift register after one more bit (R381). -/
def shiftIn (r : Byte) (b : Bool) : Byte := (r >>> 1) ||| (if b then 0x80 else 0x00)

/-- The bit enters at the top, and every old bit moves one place down. -/
theorem getLsbD_shiftIn (r : Byte) (b : Bool) {i : Nat} (hi : i < 8) :
    (shiftIn r b).getLsbD i = if i + 1 < 8 then r.getLsbD (i + 1) else b := by
  have hbelow : ∀ i < 7, (if b then 0x80 else 0x00 : Byte).getLsbD i = false := by cases b <;> decide
  have htop : (if b then 0x80 else 0x00 : Byte).getLsbD 7 = b := by cases b <;> rfl
  rw [shiftIn, BitVec.getLsbD_or, BitVec.getLsbD_ushiftRight, Nat.add_comm 1 i]
  rcases Nat.lt_or_ge i 7 with hlt | hge
  · rw [hbelow i hlt, Bool.or_false, if_pos (by omega)]
  · obtain rfl : i = 7 := by omega
    rw [htop, BitVec.getLsbD_of_ge r 8 (Nat.le_refl 8), Bool.false_or, if_neg (Nat.lt_irrefl 8)]

theorem bitsOf_shiftIn (r : Byte) (b : Bool) : bitsOf (shiftIn r b) = (bitsOf r ++ [b]).drop 1 := by
  refine List.ext_getElem (by simp) fun i hi _ => ?_
  rw [length_bitsOf] at hi
  simp [getLsbD_shiftIn r b hi, List.getElem_append]

/-- The bits received stand at the top of the register, in the order they came, above what is left of the old ones. -/
theorem bitsOf_foldl_shiftIn (r : Byte) (bs : List Bool) :
    bitsOf (bs.foldl shiftIn r) = (bitsOf r ++ bs).drop bs.length := by
  induction bs generalizing r with
  | nil => simp
  | cons b bs ih =>
    have hlen : 1 ≤ (bitsOf r ++ [b]).length := by simp
    rw [List.foldl_cons, ih, bitsOf_shiftIn, ← List.drop_append_of_le_length hlen, List.drop_drop, List.append_assoc,
      List.singleton_append, List.length_cons, Nat.add_comm]

/-- Eight bits shifted in leave nothing of the old register. -/
theorem foldl_shiftIn_bitsOf (r v : Byte) : (bitsOf v).foldl shiftIn r = v := by
  apply bitsOf_injective
  rw [bitsOf_foldl_shiftIn, List.drop_left' (by rw [length_bitsOf, length_bitsOf])]

/-- The bits that complete a byte (R381): all but the last are shifted in, and the last moves the byte on. -/
theorem Uart.foldl_receiveBit (u : Uart) (r : Byte) {k : Nat} {bs : List Bool} (hk : k < 8) (hlen : k + bs.length = 8) :
    bs.foldl Uart.receiveBit { u with rsr := r, rxcnt := BitVec.ofNat 4 k } =
      { u with
        rsr := bs.foldl shiftIn r
        rxcnt := BitVec.ofNat 4 0
        rdr := bs.foldl shiftIn r
        stat := (if u.stat.getLsbD 3 then u.stat ||| 0x04 else u.stat) ||| 0x08 } := by
  induction bs generalizing r k with
  | nil => simp only [List.length_nil] at hlen; omega
  | cons b bs ih =>
    rw [List.length_cons] at hlen
    rw [List.foldl_cons, List.foldl_cons]
    rcases Nat.lt_or_ge k 7 with hlt | hge
    · have hnext : BitVec.ofNat 4 k + 1 = BitVec.ofNat 4 (k + 1) := (BitVec.ofNat_add k 1).symm
      have hn : BitVec.ofNat 4 (k + 1) ≠ 8 := by bv_omega
      rw [Uart.receiveBit_shift u r b hnext hn]
      exact ih (shiftIn r b) (by omega) (by omega)
    · obtain rfl : k = 7 := by omega
      obtain rfl : bs = [] := List.eq_nil_of_length_eq_zero (by omega)
      exact Uart.receiveBit_eighth u r b

/-- From a count of 0 the eight bits of a byte complete it (R381). -/
theorem Uart.foldl_receiveBit_bitsOf {u : Uart} (v : Byte) (hcount : u.rxcnt = BitVec.ofNat 4 0) :
    (bitsOf v).foldl Uart.receiveBit u =
      { u with
        rdr := v
        rsr := v
        stat := (if u.stat.getLsbD 3 then u.stat ||| 0x04 else u.stat) ||| 0x08 } := by
  have hbyte := Uart.foldl_receiveBit u u.rsr (k := 0) (bs := bitsOf v) (by decide) (by rw [length_bitsOf])
  rwa [foldl_shiftIn_bitsOf, ← hcount] at hbyte

/-- The host's calls move the UART alone (R427). -/
theorem foldl_receiveBit (s : State) (bs : List Bool) :
    bs.foldl (fun t b => receiveBit b t) s = { s with uart := bs.foldl Uart.receiveBit s.uart } := by
  induction bs generalizing s with
  | nil => rfl
  | cons b bs ih => exact ih (receiveBit b s)

/-- Settles O52: from `RXCNT = 0` the eight bits complete a byte, and they are the whole of the shift register. -/
theorem eightBitsReceivedAreTheByte : Obligations.EightBitsReceivedAreTheByte := by
  intro s v hcount
  rw [foldl_receiveBit, Uart.foldl_receiveBit_bitsOf v hcount]

/-! ### Transmitting -/

/-- `n` bits sent of the eight that a data write loads (R378, R382): the lowest `n` bits of the register, in order, and
the register shifted by as many. `send` collects the bits of the calls. -/
theorem foldl_send {send : List Bool × State → Nat → List Bool × State}
    (hsend : ∀ bs s n b t, transmitBit s = .next (b, t) → send (bs, s) n = (bs ++ [b], t))
    (s : State) (u : Uart) (r : Byte) {n : Nat} (hn : n ≤ 8) :
    (List.range n).foldl send ([], { s with uart := { u with tsr := r, txcnt := 8 } }) =
      ((bitsOf r).take n, { s with uart := { u with tsr := r >>> n, txcnt := BitVec.ofNat 4 (8 - n) } }) := by
  induction n with
  | zero => simp
  | succ n ih =>
    have hleft : BitVec.ofNat 4 (8 - n) ≠ 0 := by bv_omega
    have hnext : BitVec.ofNat 4 (8 - n) - 1 = BitVec.ofNat 4 (8 - (n + 1)) := by bv_omega
    have hbit : (r >>> n).getLsbD 0 = (bitsOf r)[n]'(by rw [length_bitsOf]; omega) := by simp
    rw [List.range_succ, List.foldl_append, ih (by omega), List.foldl_cons, List.foldl_nil,
      hsend _ _ _ _ _ (transmitBit_shift s u (r >>> n) hleft hnext), hbit, List.take_append_getElem,
      BitVec.shiftRight_add]

/-- Settles O53: the eighth bit leaves nothing to send. -/
theorem byteWrittenIsTransmitted : Obligations.ByteWrittenIsTransmitted := by
  intro s v send done
  have hsend : ∀ bs t n b t', transmitBit t = .next (b, t') → send (bs, t) n = (bs ++ [b], t') := by
    intro bs t n b t' h
    simp only [send, h]
  have hdone : done = (bitsOf v, { s with uart := { s.uart with tdr := v, tsr := 0, txcnt := 0 } }) := by
    have hsent := foldl_send hsend s { s.uart with tdr := v } v (Nat.le_refl 8)
    rw [List.take_of_length_le (by rw [length_bitsOf]), BitVec.ushiftRight_eq_zero (Nat.le_refl 8)] at hsent
    exact hsent
  exact ⟨hdone, by rw [hdone]; rfl⟩

end Sys2Proof.Machine
end

section
/-! SUPPORT. The VIA's register file (R352 to R355): what each index writes, and what the ports read. -/

namespace Sys2Proof.Machine

/-- A write stores in a port's latch or direction register at the index of that register alone; port A's latch has two
(R352, R353). -/
theorem Via.write_ports (d : Via) (i : BitVec 4) (v : Byte) :
    (d.write i v).orb = (if i.toNat = 0 then v else d.orb) ∧
      (d.write i v).ora = (if i.toNat = 1 ∨ i.toNat = 15 then v else d.ora) ∧
      (d.write i v).ddra = (if i.toNat = 3 then v else d.ddra) := by
  rw [Via.write]
  have hi := i.isLt
  generalize i.toNat = n at hi
  interval_cases n <;> exact ⟨rfl, rfl, rfl⟩

/-- The byte registers and register halves of the indices 2 to 14, in the order of the index map (R352). -/
def Via.storage (d : Via) : List Byte :=
  [d.ddrb, d.ddra, lo8 d.t1c, hi8 d.t1c, lo8 d.t1l, hi8 d.t1l, lo8 d.t2c, hi8 d.t2c, d.sr, d.acr, d.pcr, d.ifr, d.ier]

/-- A read at an index of the storage is the byte there, whatever the pins (R355). -/
theorem Via.storage_getElem? (d : Via) {i : Nat} (pinA pinB : Byte) (h2 : 2 ≤ i) (h14 : i ≤ 14) :
    d.storage[i - 2]? = some (d.read (BitVec.ofNat 4 i) pinA pinB) := by
  interval_cases i <;> rfl

/-- A write at an index of the storage replaces the byte there (R353). -/
theorem Via.storage_write (d : Via) {i : Nat} (v : Byte) (h2 : 2 ≤ i) (h14 : i ≤ 14) :
    (d.write (BitVec.ofNat 4 i) v).storage = d.storage.set (i - 2) v := by
  interval_cases i <;> simp [Via.write, Via.storage]

theorem Via.read_write_self (d : Via) {i : Nat} (v pinA pinB : Byte) (h2 : 2 ≤ i) (h14 : i ≤ 14) :
    (d.write (BitVec.ofNat 4 i) v).read (BitVec.ofNat 4 i) pinA pinB = v := by
  have hlen : i - 2 < d.storage.length := by simp only [Via.storage, List.length_cons, List.length_nil]; omega
  apply Option.some_injective
  rw [← Via.storage_getElem? _ pinA pinB h2 h14, Via.storage_write d v h2 h14, List.getElem?_set_self hlen]

theorem Via.read_write_ne (d : Via) {i j : Nat} (v pinA pinB : Byte) (h2 : 2 ≤ i) (h14 : i ≤ 14) (h2' : 2 ≤ j)
    (h14' : j ≤ 14) (hne : i ≠ j) :
    (d.write (BitVec.ofNat 4 i) v).read (BitVec.ofNat 4 j) pinA pinB = d.read (BitVec.ofNat 4 j) pinA pinB := by
  have hplace : i - 2 ≠ j - 2 := by omega
  apply Option.some_injective
  rw [← Via.storage_getElem? _ pinA pinB h2' h14', Via.storage_write d v h2 h14, List.getElem?_set_ne hplace,
    Via.storage_getElem? d pinA pinB h2' h14']

/-- A new low half, in the arithmetic of the statements. -/
theorem wordOf_hi8 (v : Byte) (w : Word) : wordOf v (hi8 w) = BitVec.ofNat 16 (w.toNat / 256 * 256 + v.toNat) := by
  rw [wordOf_eq, hi8_toNat, Nat.mul_comm, Nat.add_comm]

/-- A new high half, in the arithmetic of the statements. -/
theorem wordOf_lo8 (w : Word) (v : Byte) : wordOf (lo8 w) v = BitVec.ofNat 16 (w.toNat % 256 + 256 * v.toNat) := by
  rw [wordOf_eq, lo8_toNat]

/-- Settles O54: the rows of the write map, and the storage behind the indices 2 to 14. -/
theorem viaRegistersAreStorage : Obligations.ViaRegistersAreStorage := by
  intro d v lowOf highOf
  simp only [lowOf, highOf, ← wordOf_hi8, ← wordOf_lo8]
  refine ⟨rfl, rfl, rfl, rfl, rfl, rfl, rfl, rfl, rfl, rfl, rfl, rfl, rfl, rfl, rfl, rfl, ?_⟩
  intro i j pinA pinB h2 h14 h2' h14'
  have hindex : (BitVec.ofNat 4 i).toNat = i := Nat.mod_eq_of_lt (by omega)
  obtain ⟨horb, hora, -⟩ := Via.write_ports d (BitVec.ofNat 4 i) v
  rw [hindex, if_neg (by omega)] at horb hora
  exact ⟨Via.read_write_self d v pinA pinB h2 h14, Via.read_write_ne d v pinA pinB h2 h14 h2' h14', hora, horb,
    Via.write_t2l d _ v⟩

/-- A bit of a port is the latch's where the direction bit is 1, and the pin's where it is 0 (R354). -/
theorem getLsbD_select (latch dir pin : Byte) {k : Nat} (hk : k < 8) :
    ((latch &&& dir) ||| (pin &&& ~~~dir)).getLsbD k = if dir.getLsbD k then latch.getLsbD k else pin.getLsbD k := by
  rw [BitVec.getLsbD_or, BitVec.getLsbD_and, BitVec.getLsbD_and, BitVec.getLsbD_not, decide_eq_true hk]
  cases dir.getLsbD k <;> simp

/-- Settles O55: each of the three indices reads a port. -/
theorem portReadIsPerBit : Obligations.PortReadIsPerBit := fun _ _ _ _ hk =>
  ⟨getLsbD_select _ _ _ hk, getLsbD_select _ _ _ hk, getLsbD_select _ _ _ hk⟩

end Sys2Proof.Machine
end

section
/-! SUPPORT. The VIA-to-LCD coupling (R410 to R413): its gate, and the accesses it lets through to the LCD. -/

namespace Sys2Proof.Machine

/-- A read of the VIA window (R411): the coupling first, then the VIA, which the coupling leaves alone. -/
theorem viaLcdRead_eq (i : BitVec 4) (pinA pinB : Byte) (s : State) :
    viaLcdRead i pinA pinB s =
      (s.via.read i pinA (lcdCouple pinA pinB s).1, { s with lcd := (lcdCouple pinA pinB s).2.lcd }) := by
  rw [viaLcdRead, lcdCouple_eq]

/-- Settles O59: with the gate at 1 the two control bits select the LCD's operation. -/
theorem lcdCouplingGate : Obligations.LcdCouplingGate := by
  intro pinA pinB s pa pb
  refine ⟨lcdCouple_gateLow pinB, fun h7 h6 h5 => ?_, fun h7 h6 h5 => ?_, fun h7 h6 h5 => ?_, fun h7 h6 h5 => ?_,
    fun i v => ⟨viaLcdRead_eq i pinA pinB s, rfl⟩⟩
  all_goals
    have hpa : s.via.portA pinA = pa := rfl
    rw [lcdCouple_gateHigh pinB h7, hpa, h6, h5]
    rfl

/-- A read while the gate bit is latch-driven low is the VIA's alone (R413). -/
theorem viaLcdRead_gateLow {s : State} (i : BitVec 4) (pinA pinB : Byte) (hd : s.via.ddra.getLsbD 7 = true)
    (ho : s.via.ora.getLsbD 7 = false) : viaLcdRead i pinA pinB s = (s.via.read i pinA pinB, s) := by
  rw [viaLcdRead, lcdCouple_gateLow pinB (Via.portA_gateLow pinA hd ho)]

/-- A write is the VIA's alone where the gate bit is latch-driven low before it and it leaves the bit so (R413): at an
index of port A's latch it has bit 7 of the byte 0, at the index of its directions 1. -/
theorem viaLcdWrite_gateLow {s : State} {i : BitVec 4} {v : Byte} (pinA pinB : Byte)
    (hd : s.via.ddra.getLsbD 7 = true) (ho : s.via.ora.getLsbD 7 = false)
    (hlatch : i.toNat = 1 ∨ i.toNat = 15 → v.getLsbD 7 = false) (hdir : i.toNat = 3 → v.getLsbD 7 = true) :
    viaLcdWrite i v pinA pinB s = { s with via := s.via.write i v } := by
  obtain ⟨-, hora, hddra⟩ := Via.write_ports s.via i v
  have hd' : (s.via.write i v).ddra.getLsbD 7 = true := by
    rw [hddra]
    split
    · exact hdir ‹_›
    · exact hd
  have ho' : (s.via.write i v).ora.getLsbD 7 = false := by
    rw [hora]
    split
    · exact hlatch ‹_›
    · exact ho
  have hgate := Via.portA_gateLow pinA hd' ho'
  rw [viaLcdWrite, lcdCouple_gateLow (s := { s with via := s.via.write i v }) pinB hgate]

/-- Settles O60: an access of the window is the VIA's with a fresh pair of pin levels. -/
theorem gateLowShieldsLcd : Obligations.GateLowShieldsLcd := by
  intro a v s hlo hhi hd ho
  have hindex : (BitVec.ofNat 4 (a.toNat % 16)).toNat = a.toNat % 16 := Nat.mod_mod a.toNat 16
  refine ⟨?read, fun hlatch hdir => ?write⟩
  case read => exact (memRead_viaLcd s hlo hhi).trans (viaLcdRead_gateLow _ _ _ hd ho)
  case write =>
    rw [← hindex] at hlatch hdir
    rw [memWrite_viaLcd v s hlo hhi, viaLcdWrite_gateLow _ _ hd ho hlatch hdir]

end Sys2Proof.Machine
end

section
/-! SUPPORT. What no step can change in the devices (R427): the UART's shifting, the VIA's second latch, the LCD's shift
placeholder and busy flag. -/

namespace Sys2Proof.Machine

/-- `w` is `u` with no bit shifted in or out: the receive side is kept, and the transmit side is kept or is as a data
write loads it (R378). -/
structure Uart.Unshifted (u w : Uart) : Prop where
  rdr : w.rdr = u.rdr
  rsr : w.rsr = u.rsr
  rxcnt : w.rxcnt = u.rxcnt
  transmit : w.txcnt = u.txcnt ∧ w.tsr = u.tsr ∧ w.tdr = u.tdr ∨ w.txcnt = 8 ∧ w.tsr = w.tdr

theorem Uart.Unshifted.refl (u : Uart) : u.Unshifted u := ⟨rfl, rfl, rfl, .inl ⟨rfl, rfl, rfl⟩⟩

/-- The last load of the transmit side stands; where the second change kept it, the first one's does. -/
theorem Uart.Unshifted.trans {u v w : Uart} (h : u.Unshifted v) (h' : v.Unshifted w) : u.Unshifted w := by
  refine ⟨h'.rdr.trans h.rdr, h'.rsr.trans h.rsr, h'.rxcnt.trans h.rxcnt, ?_⟩
  rcases h'.transmit with ⟨hcount, hshift, hdata⟩ | hloaded
  · rw [hcount, hshift, hdata]; exact h.transmit
  · exact .inr hloaded

theorem Uart.unshifted_read (u : Uart) (i : BitVec 2) : u.Unshifted (u.read i).2 := by
  rw [Uart.read_eq]; exact ⟨rfl, rfl, rfl, .inl ⟨rfl, rfl, rfl⟩⟩

theorem Uart.unshifted_write (u : Uart) (i : BitVec 2) (v : Byte) : u.Unshifted (u.write i v) := by
  obtain ⟨hrdr, hrsr, hrxcnt, hkept | ⟨hcount, hshift, hdata⟩⟩ := Uart.write_eq u i v
  · exact ⟨hrdr, hrsr, hrxcnt, .inl hkept⟩
  · exact ⟨hrdr, hrsr, hrxcnt, .inr ⟨hcount, hshift.trans hdata.symm⟩⟩

/-- From `s` to `t` the devices changed only as a bus access can change them. -/
structure HostPartKept (s t : State) : Prop where
  uart : s.uart.Unshifted t.uart
  t2l : t.via.t2l = s.via.t2l
  fShift : t.lcd.fShift = s.lcd.fShift
  fBusy : t.lcd.fBusy = s.lcd.fBusy

theorem HostPartKept.refl (s : State) : HostPartKept s s := ⟨.refl _, rfl, rfl, rfl⟩

theorem HostPartKept.trans {s t u : State} (h : HostPartKept s t) (h' : HostPartKept t u) : HostPartKept s u :=
  ⟨h.uart.trans h'.uart, h'.t2l.trans h.t2l, h'.fShift.trans h.fShift, h'.fBusy.trans h.fBusy⟩

/-- No bus read writes `F_SHIFT` (R47). -/
@[simp] theorem memRead_fShift (a : Word) (s : State) : (memRead a s).2.lcd.fShift = s.lcd.fShift := by
  rcases memRead_lcd_cases a s with h | ⟨rs, rw, d, h⟩
  · rw [h]
  · rw [h]; exact (Lcd.execute_stored s.lcd rs rw d).2

/-- No bus write writes `F_SHIFT` (R47). -/
@[simp] theorem memWrite_fShift (a : Word) (v : Byte) (s : State) : (memWrite a v s).lcd.fShift = s.lcd.fShift := by
  rcases memWrite_lcd_cases a v s with h | ⟨rs, rw, d, h⟩
  · rw [h]
  · rw [h]; exact (Lcd.execute_stored s.lcd rs rw d).2

/-- No bus write reaches `T2L` (R352, C6). -/
@[simp] theorem memWrite_t2l (a : Word) (v : Byte) (s : State) : (memWrite a v s).via.t2l = s.via.t2l := by
  rcases memWrite_via_cases a v s with h | ⟨i, h⟩
  · rw [h]
  · rw [h, Via.write_t2l]

theorem memRead_hostPartKept (a : Word) (s : State) : HostPartKept s (memRead a s).2 := by
  have huart : s.uart.Unshifted (memRead a s).2.uart := by
    rcases memRead_uart_cases a s with h | ⟨i, h⟩
    · rw [h]; exact .refl _
    · rw [h]; exact s.uart.unshifted_read i
  have hvia : (memRead a s).2.via = s.via := by rw [memRead_eq, afterRead_via]
  exact ⟨huart, congrArg Via.t2l hvia, memRead_fShift a s, memRead_fBusy a s⟩

theorem memWrite_hostPartKept (a : Word) (v : Byte) (s : State) : HostPartKept s (memWrite a v s) := by
  have huart : s.uart.Unshifted (memWrite a v s).uart := by
    rcases memWrite_uart_cases a v s with h | ⟨i, h⟩
    · rw [h]; exact .refl _
    · rw [h]; exact s.uart.unshifted_write i v
  exact ⟨huart, memWrite_t2l a v s, memWrite_fShift a v s, memWrite_fBusy a v s⟩

/-- Along an effect: bus accesses keep what is the host's, and a change of CPU registers touches no device. -/
theorem Effect.hostPartKept {s t : State} (h : Effect s t) : HostPartKept s t := by
  induction h with
  | start => exact .refl s
  | read a _ ih => exact ih.trans (memRead_hostPartKept a _)
  | write a v _ ih => exact ih.trans (memWrite_hostPartKept a v _)
  | cpu _ hu _ ih => rw [hu]; exact ⟨ih.uart, ih.t2l, ih.fShift, ih.fBusy⟩

/-- Settles O14: a step is an effect, and every effect keeps what is the host's. -/
theorem deviceStateOnlyTheHostChanges : Obligations.DeviceStateOnlyTheHostChanges := by
  intro s t hstep
  obtain ⟨⟨hrdr, hrsr, hrxcnt, htransmit⟩, ht2l, hshift, hbusy⟩ := (step_effect hstep).hostPartKept
  exact ⟨hrdr, hrsr, hrxcnt, ht2l, hshift, hbusy, htransmit.imp_left fun ⟨hcount, htsr, _⟩ => ⟨hcount, htsr⟩⟩

end Sys2Proof.Machine
end

section
/-! SUPPORT. What each call of the host keeps of the invariant (R420, R425 to R430). -/

namespace Sys2Proof.Machine

variable {s : State}

/-- `resume` writes `ST` alone (R425). -/
theorem resume_inv {t : State} (hs : Inv s) (h : resume s = .next t) : Inv t := by
  rw [resume] at h
  split at h <;> cases h <;> exact hs

/-- A reset of the CPU sets bit 5 of `P` and touches neither memory nor a device (R34). -/
theorem resetCpu_inv (d : CpuDraws) (hs : Inv s) : Inv (resetCpu d s) := by
  obtain ⟨hmem, -, hdevices⟩ := hs
  exact ⟨hmem, or20_bit5 d.p, hdevices⟩

/-- After a reset (R420) the UART's counts and the busy flag are 0 or as before. -/
theorem resetSubsystems_inv (sel : Subsystems) (d : CpuDraws) (hs : Inv s) : Inv (resetSubsystems sel d s) := by
  have hcpu : Inv (if sel.cpu then resetCpu d s else s) := by
    split
    · exact resetCpu_inv d hs
    · exact hs
  obtain ⟨hmem, hp, -⟩ := hcpu
  obtain ⟨-, -, htx, hrx, hbusy⟩ := hs
  rw [resetSubsystems_eq]
  refine ⟨hmem, hp, ?_, ?_, ?_⟩
  · show (if sel.uart then Uart.reset else s.uart).txcnt.toNat ≤ 8
    split
    · exact Nat.zero_le 8
    · exact htx
  · show (if sel.uart then Uart.reset else s.uart).rxcnt.toNat ≤ 7
    split
    · exact Nat.zero_le 7
    · exact hrx
  · show (if sel.lcd then Lcd.reset else s.lcd).fBusy = false
    split
    · rfl
    · exact hbusy

/-- `program` writes cells of `ROM` alone (R426). -/
theorem program_inv {data : List Byte} {off : Nat} {t : State} (hs : Inv s) (h : program data off s = .next t) :
    Inv t := by
  obtain ⟨hmem, hrest⟩ := hs
  rw [program] at h
  split at h <;> cases h
  exact ⟨programFrom_wf hmem, hrest⟩

/-- A received bit counts up from at most 7, and the eighth takes the count to 0 (R381). -/
theorem receiveBit_inv (b : Bool) (hs : Inv s) : Inv (receiveBit b s) := by
  obtain ⟨hmem, hp, htx, hrx, hbusy⟩ := hs
  obtain ⟨htx', -⟩ := s.uart.receiveBit_tx b
  have hrx' : (s.uart.receiveBit b).rxcnt.toNat ≤ 7 := by
    rw [Uart.receiveBit_rxcnt]
    split
    · exact Nat.zero_le 7
    · bv_omega
  exact ⟨hmem, hp, htx'.symm ▸ htx, hrx', hbusy⟩

/-- A transmitted bit counts down, and only while the count is above 0 (R382). -/
theorem transmitBit_inv {r : Bool × State} (hs : Inv s) (h : transmitBit s = .next r) : Inv r.2 := by
  obtain ⟨hmem, hp, htx, hrest⟩ := hs
  rw [transmitBit] at h
  split at h <;> cases h
  have htx' : (s.uart.txcnt - 1).toNat ≤ 8 := by bv_omega
  exact ⟨hmem, hp, htx', hrest⟩

theorem uartRead_inv (i : BitVec 2) (hs : Inv s) : Inv (uartRead i s).2 := by
  rw [uartRead, Uart.read_eq]; exact hs

/-- A UART write keeps the transmit count or loads it with 8, and keeps the receive count (R376 to R378). -/
theorem uartWrite_inv (i : BitVec 2) (v : Byte) (hs : Inv s) : Inv (uartWrite i v s) := by
  obtain ⟨hmem, hp, htx, hrx, hbusy⟩ := hs
  have hkept := s.uart.unshifted_write i v
  have htx' : (s.uart.write i v).txcnt.toNat ≤ 8 := by
    rcases hkept.transmit with ⟨h, -⟩ | ⟨h, -⟩
    · rw [h]; exact htx
    · rw [h]; decide
  exact ⟨hmem, hp, htx', hkept.rxcnt.symm ▸ hrx, hbusy⟩

theorem lcdExecute_inv (rs rw : Bool) (d : Byte) (hs : Inv s) : Inv (lcdExecute rs rw d s).2 := by
  obtain ⟨hmem, hp, htx, hrx, hbusy⟩ := hs
  exact ⟨hmem, hp, htx, hrx, (Lcd.execute_stored s.lcd rs rw d).1.trans hbusy⟩

/-- The coupling is at most one direct operation of the LCD (R410). -/
theorem lcdCouple_inv (pinA pinB : Byte) (hs : Inv s) : Inv (lcdCouple pinA pinB s).2 := by
  rw [lcdCouple]
  split
  · exact lcdExecute_inv _ _ _ hs
  · exact hs

/-- `load` (R428), region by region (R62): with any pin levels, a device window is a direct access of its device. -/
theorem load_inv (a : Word) (pinA pinB : Byte) (hs : Inv s) : Inv (load a pinA pinB s).2 := by
  rw [load, busRead]
  cases region a with
  | ram | unmapped | rom => exact hs
  | uart => exact uartRead_inv _ hs
  | viaLcd => exact lcdCouple_inv pinA pinB hs

/-- Every state that meets the invariant steps to one that does. -/
theorem step_next_inv (hs : Inv s) : ∃ t, step s = .next t ∧ Inv t := by
  obtain ⟨t, ht⟩ := everyStepHasNextState s
  exact ⟨t, ht, everyStepKeepsInvariant s t hs ht⟩

/-- The helper that stops on an address ends at it (R430). -/
theorem executeUntilAddress_inv {a : Word} {n : Nat} {r : Host.Outcome State Fault Refusal} (hs : Inv s)
    (h : executeUntilAddress a n s = some r) : ∃ t, r = .next t ∧ t.pc = a ∧ Inv t := by
  obtain ⟨_, t, -, hstop, hr, ht⟩ := executeUntil_keeps (fun _ => step_next_inv) hs h
  exact ⟨t, hr, eq_of_beq hstop, ht⟩

theorem executeUntilOpcode_inv {b : Byte} {n : Nat} {r : Host.Outcome State Fault Refusal} (hs : Inv s)
    (h : executeUntilOpcode b n s = some r) : ∃ t, r = .next t ∧ Inv t := by
  obtain ⟨_, t, -, -, hr, ht⟩ := executeUntil_keeps (fun _ => step_next_inv) hs h
  exact ⟨t, hr, ht⟩

end Sys2Proof.Machine
end

section
/-! SUPPORT. The statements about the boot step (R423), the reset by subsystem (R420) and the host's calls (R425 to
R430). -/

namespace Sys2Proof.Machine

/-- Settles O7: the step and the report in booting. -/
theorem bootStepLoadsResetVector : Obligations.BootStepLoadsResetVector := fun _ => step_booting

/-- Settles O48: the CPU's registers are drawn or kept as one, and each device is chosen by itself. -/
theorem resetIsPerSubsystem : Obligations.ResetIsPerSubsystem := by
  intro ⟨cpu, via, uart, lcd⟩ d s
  rw [resetSubsystems_eq]
  cases cpu with
  | true => rfl
  | false => rfl

/-- Settles O12, call by call; the VIA, which two of them access, is no part of the invariant. -/
theorem hostCallsKeepInvariant : Obligations.HostCallsKeepInvariant := fun _ hs =>
  ⟨fun _ => resume_inv hs,
   fun sel d => resetSubsystems_inv sel d hs,
   fun _ _ _ => program_inv hs,
   fun b => receiveBit_inv b hs,
   fun _ => transmitBit_inv hs,
   fun a pinA pinB => load_inv a pinA pinB hs,
   fun a v => memWrite_inv a v hs,
   fun _ _ _ => hs,
   fun _ _ => hs,
   fun i => uartRead_inv i hs,
   fun i v => uartWrite_inv i v hs,
   fun rs rw d => lcdExecute_inv rs rw d hs,
   fun n => executeCount_keeps (fun _ => step_next_inv) n hs,
   fun _ _ _ => executeUntilAddress_inv hs,
   fun _ _ _ => executeUntilOpcode_inv hs⟩

end Sys2Proof.Machine
end

section
/-! SUPPORT. The encoding as a bijection (R102, R112): one law of the decoder, read in both directions against the
opcode's cell of the matrix. -/

namespace Sys2Proof

/-- The instruction that the operand bytes of one encoding complete in a cell, where they are as many as its format
has. -/
def Cell.complete : Cell → List Byte → Option Instr
  | .f1 i, [] => some i
  | .f2 mk, [lo] => some (mk lo)
  | .f3 mk, [lo, hi] => some (mk lo hi)
  | _, _ => none

/-- A 16-bit operand is completed by its own two bytes (R102, R74). -/
theorem Cell.complete_word {c : Cell} {mk : Word → Instr} (h : c = f3w mk) (w : Word) :
    c.complete [lo8 w, hi8 w] = some (mk w) := by
  rw [h, f3w, Cell.complete, Machine.wordOf_lo8_hi8]

/-- The decoder (R101, R102) splits the bytes after the opcode into operands that complete the opcode's cell, and the
rest. -/
theorem decode_eq_ok_iff {op : Byte} {tail rest : List Byte} {i : Instr} :
    decode (op :: tail) = .ok (i, rest) ↔
      ∃ operands, tail = operands ++ rest ∧ (opcodeCell op).complete operands = some i := by
  constructor
  · intro h
    simp only [decode] at h
    split at h
    · next j _ hcell =>
      cases h
      exact ⟨[], rfl, by rw [hcell, Cell.complete]⟩
    · next mk lo _ hcell =>
      cases h
      exact ⟨[lo], rfl, by rw [hcell, Cell.complete]⟩
    · next mk lo hi _ hcell =>
      cases h
      exact ⟨[lo, hi], rfl, by rw [hcell, Cell.complete]⟩
    · cases h
  · rintro ⟨operands, rfl, h⟩
    rw [Cell.complete.eq_def] at h
    split at h
    · next hcell =>
      cases h
      exact decode_f1 rest hcell
    · next hcell =>
      cases h
      exact decode_f2 _ rest hcell
    · next hcell =>
      cases h
      exact decode_f3 _ _ rest hcell
    · cases h

/-- An instruction's encoding is an opcode and operands that complete the opcode's cell to it (R102, R112): a 16-bit
operand from its two bytes, every other operand from the bytes as they are. -/
theorem exists_encode_eq_cons (i : Instr) :
    ∃ op operands, encode i = op :: operands ∧ (opcodeCell op).complete operands = some i := by
  cases i with
  | ldaAbs w | ldaAby w | ldaAbx w | ldxAbs w | ldxAby w | ldyAbs w | ldyAbx w | staAbs w | staAby w | staAbx w
  | stxAbs w | styAbs w | stzAbs w | stzAbx w | adcAbs w | adcAby w | adcAbx w | sbcAbs w | sbcAby w | sbcAbx w
  | andAbs w | andAby w | andAbx w | oraAbs w | oraAby w | oraAbx w | eorAbs w | eorAby w | eorAbx w | cmpAbs w
  | cmpAby w | cmpAbx w | cpxAbs w | cpyAbs w | bitAbs w | bitAbx w | tsbAbs w | trbAbs w | aslAbs w | aslAbx w
  | lsrAbs w | lsrAbx w | rolAbs w | rolAbx w | rorAbs w | rorAbx w | incAbs w | incAbx w | decAbs w | decAbx w
  | jmpAbs w | jmpInd w | jmpIax w | jsr w =>
    exact ⟨_, _, rfl, Cell.complete_word rfl w⟩
  | _ => exact ⟨_, _, rfl, rfl⟩

/-- What operands complete a cell to is encoded by the cell's opcode and these operands. -/
theorem encode_of_complete {op : Byte} {operands : List Byte} {i : Instr}
    (h : (opcodeCell op).complete operands = some i) : encode i = op :: operands := by
  have hcell := cellEncodes op
  generalize opcodeCell op = c at h hcell
  rw [Cell.complete.eq_def] at h
  split at h
  · cases h; exact hcell.1
  · cases h; exact hcell.1 _
  · cases h; exact hcell.1 _ _
  · cases h

/-- Settles O1: the encoding's operands complete its opcode's cell, so they are what the decoder reads. -/
theorem decodeOfEncodeIsIdentity : Obligations.DecodeOfEncodeIsIdentity := by
  intro i rest
  obtain ⟨op, operands, hencode, hcomplete⟩ := exists_encode_eq_cons i
  rw [hencode]
  exact decode_eq_ok_iff.mpr ⟨operands, rfl, hcomplete⟩

/-- Settles O2: the operands the decoder reads complete the opcode's cell, which says how the result is encoded. -/
theorem encodeOfDecodeIsIdentity : Obligations.EncodeOfDecodeIsIdentity := by
  intro bytes i rest h
  cases bytes with
  | nil => cases h
  | cons op tail =>
    obtain ⟨operands, rfl, hcomplete⟩ := decode_eq_ok_iff.mp h
    rw [encode_of_complete hcomplete]
    rfl

end Sys2Proof
end

section
/-! SUPPORT. Memory under a bus write and along a step (R69, R78): `ROM` is kept, and `RAM` reads back its last write. -/

namespace Sys2Proof.Machine

/-- Along an effect no byte of `ROM` changes: a bus write discards it, and nothing else touches memory. -/
theorem Effect.rom {s t : State} (h : Effect s t) {k : Nat} (hk : 0xE000 ≤ k) :
    Memory.read t.mem k = Memory.read s.mem k := by
  induction h with
  | start => rfl
  | read a _ ih => rw [memRead_eq]; exact ih
  | write a v _ ih => exact (memWrite_rom a v _ hk).trans ih
  | cpu _ hu _ ih => rw [hu]; exact ih

/-- Settles O13: a step is an effect. -/
theorem romIsNeverChangedByAStep : Obligations.RomIsNeverChangedByAStep :=
  fun _ _ hstep _ hk => (step_effect hstep).rom hk

/-- A memory byte written elsewhere leaves what an address outside the device windows reads as. -/
theorem plainByte_write_ne {a : Nat} {b : Word} (v : Byte) (s : State) (h : b.toNat ≠ a) :
    plainByte { s with mem := Memory.write s.mem a v } b = plainByte s b := by
  simp only [plainByte, Memory.read_write_ne s.mem v h]

/-- Settles O18: a write to `RAM` is one cell of memory, and a read outside the device windows is of memory alone. -/
theorem ramReadReturnsLastWrite : Obligations.RamReadReturnsLastWrite := by
  intro a v s hmem ha
  rw [memWrite_ram v s ha]
  refine ⟨?same, fun b hne hb => ?other⟩
  case same => rw [memRead_mem _ (.inl ha), Memory.read_write_self _ v hmem]
  case other =>
    have hcell : b.toNat ≠ a.toNat := mt BitVec.eq_of_toNat_eq hne
    rw [memRead_plain _ hb, memRead_plain s hb, plainByte_write_ne v s hcell]

end Sys2Proof.Machine
end

section
/-! SUPPORT. The adder for a complement (R170, R172), and BIT (R180). -/

namespace Sys2Proof.Machine

/-- The complement of a byte is one less than its negative. -/
theorem toInt_not_byte (m : Byte) : (~~~m).toInt = -m.toInt - 1 := by
  have hm := m.isLt
  rw [toInt_byte, toInt_byte, BitVec.toNat_not]
  split <;> split <;> omega

/-- Settles O23: the adder is exact, and adding the complement subtracts with the borrow `1 - C`. -/
theorem adderIsExact : Obligations.AdderIsExact := by
  intro a m c add sub borrow
  have hm := m.isLt
  have hborrow : borrow + c.toNat = 1 := by cases c <;> rfl
  refine ⟨add8_r_toNat a m c, ?addCarry, ?addOverflow, ?subSum, ?subCarry, ?subOverflow⟩
  case addCarry => rw [add8_cout, decide_eq_true_eq]
  case addOverflow => rw [add8_v, decide_eq_true_eq]
  case subSum => rw [add8_r_toNat, BitVec.toNat_not]; omega
  case subCarry => rw [add8_cout, decide_eq_true_eq, BitVec.toNat_not]; omega
  case subOverflow => rw [add8_v, decide_eq_true_eq, toInt_not_byte]; omega

/-- Settles O28: each form runs as `bitTest`, whose immediate form writes N and V too. -/
theorem bitTestFlags : Obligations.BitTestFlags := by
  intro b w s
  simpa only [bitTest_eq, beq_eq_decide] using
    forms_encoded_and_run (forms := bitForms b w) (fun o => bitTest o s) rfl rfl

end Sys2Proof.Machine
end

section
/-! SUPPORT. The state after reset (R34, R41, R46, R52). -/

namespace Sys2Proof.Machine

/-- Settles O10, clause by clause of the invariant. -/
theorem resetMeetsInvariant : Obligations.ResetMeetsInvariant :=
  ⟨Memory.wf_nil, rfl, Nat.zero_le 8, Nat.zero_le 7, rfl⟩

end Sys2Proof.Machine
end

section
/-! SUPPORT. Who writes the bits of `P` that are not flags of a result: I, D, B and bit 5 (R24 to R28). -/

namespace Sys2Proof.Machine

/-- The bits 2 to 5 of `P` are not N, V, Z or C (R24). -/
theorem pWith_storedBit (p : Byte) (n v z c : Option Bool) {j : Nat} (h2 : 2 ≤ j) (h5 : j ≤ 5) :
    (pWith p n v z c).getLsbD j = p.getLsbD j := by
  have hkept : ∀ (q : Byte) (k : Nat) (b : Option Bool), k < 8 → k ≠ j →
      (putBit q (1#8 <<< k) b).getLsbD j = q.getLsbD j := by
    intro q k b hk hne
    cases b with
    | none => rfl
    | some b => rw [← withBit_eq_putBit, getLsbD_withBit q k j b hk (by omega), if_neg hne.symm]
  calc (pWith p n v z c).getLsbD j
    _ = (putBit (putBit (putBit p (1#8 <<< 7) n) (1#8 <<< 6) v) (1#8 <<< 1) z).getLsbD j :=
      hkept _ 0 c (by omega) (by omega)
    _ = (putBit (putBit p (1#8 <<< 7) n) (1#8 <<< 6) v).getLsbD j := hkept _ 1 z (by omega) (by omega)
    _ = (putBit p (1#8 <<< 7) n).getLsbD j := hkept _ 6 v (by omega) (by omega)
    _ = p.getLsbD j := hkept _ 7 n (by omega) (by omega)

/-- Every instruction but CLI, SEI, CLD, SED, BRK, PLP and RTI runs and keeps the bits 2 to 5 of `P`: its body writes
`P`, where it does, through the flags N, V, Z and C alone. -/
theorem exec_keeps_storedBits {i : Instr} (s : State) (hi : i ∉ [.cli, .sei, .cld, .sed, .brk, .plp, .rti]) :
    ∃ t, exec i s = .next t ∧ ∀ j, 2 ≤ j → j ≤ 5 → t.p.getLsbD j = s.p.getLsbD j := by
  cases i with
  | cli | sei | cld | sed | brk | plp | rti => exact absurd (by decide) hi
  | clc | sec | clv =>
    refine ⟨_, rfl, fun j h2 h5 => ?_⟩
    exact (getLsbD_withBit _ _ _ _ (by omega) (by omega)).trans (if_neg (by omega))
  | _ =>
    refine ⟨_, rfl, fun j h2 h5 => ?_⟩
    simp only [lda_eq, ldx_eq, ldy_eq, storeOperand_eq, adc_eq, sbc_eq, addToA_eq, andA_eq, oraA_eq, eorA_eq, toA_eq,
      cmp_eq, cpx_eq, cpy_eq, compareReg_eq, bitTest_eq, tsb, trb, rmb, smb, modifyMem_eq, modifyA, leftFlags_eq,
      rightFlags_eq, countFlags_eq, testFlag_eq, noFlags_eq, branch_eq, branchOnBit_eq, jumpThrough_eq, jsrTo_eq,
      rtsBody_eq, push_eq, pullA_eq, pullX_eq, pullY_eq, noOperation, State.setNZ_eq_pNZ, pNZ, pNZC,
      memWrite_p, operandAfter_p, afterRead_p, pWith_storedBit _ _ _ _ _ h2 h5]

/-- No effect clears bit 5 of `P` (R25). -/
theorem Effect.bit5 {s t : State} (h : Effect s t) (hs : s.p.getLsbD 5 = true) : t.p.getLsbD 5 = true := by
  induction h with
  | start => exact hs
  | read a _ ih => rw [memRead_eq]; exact ih
  | write a v _ ih => rw [memWrite_p]; exact ih
  | cpu _ _ hp ih => exact hp ih

theorem setI_keeps_bits (s : State) (b : Bool) {j : Nat} (hj : j < 8) (h : j ≠ 2) :
    (s.setI b).p.getLsbD j = s.p.getLsbD j := by
  rw [State.setI_p, getLsbD_withBit _ _ _ _ (by decide) hj, if_neg h]

theorem setD_keeps_bits (s : State) (b : Bool) {j : Nat} (hj : j < 8) (h : j ≠ 3) :
    (s.setD b).p.getLsbD j = s.p.getLsbD j := by
  rw [State.setD_p, getLsbD_withBit _ _ _ _ (by decide) hj, if_neg h]

/-- The trap leaves every bit of `P` but I and D (R300). -/
theorem takeTrap_keeps_bits (ret : Word) (s : State) {j : Nat} (hj : j < 8) (h2 : j ≠ 2) (h3 : j ≠ 3) :
    (takeTrap ret s).p.getLsbD j = s.p.getLsbD j := by
  rw [takeTrap_eq, getLsbD_withBit _ _ _ _ (by decide) hj, if_neg h3, getLsbD_withBit _ _ _ _ (by decide) hj,
    if_neg h2]

/-- Settles O15: the seven instructions that write a stored flag one by one, and all others at once. -/
theorem writersOfStoredFlags : Obligations.WritersOfStoredFlags := by
  intro i s
  have hbit5 : ∀ t, exec i s = .next t → s.p.getLsbD 5 = true → t.p.getLsbD 5 = true :=
    fun _ ht => (exec_effect ht).bit5
  have hothers := exec_keeps_storedBits (i := i) s
  cases i with
  | cli | sei =>
    exact ⟨_, rfl, fun hi => absurd (by decide) hi, fun _ => setI_keeps_bits s _ (by decide) (by decide),
      fun _ => setI_keeps_bits s _ (by decide) (by decide), hbit5 _ rfl⟩
  | cld | sed =>
    exact ⟨_, rfl, fun _ => setD_keeps_bits s _ (by decide) (by decide), fun hi => absurd (by decide) hi,
      fun _ => setD_keeps_bits s _ (by decide) (by decide), hbit5 _ rfl⟩
  | brk =>
    exact ⟨_, rfl, fun hi => absurd (by decide) hi, fun hi => absurd (by decide) hi,
      fun _ => takeTrap_keeps_bits _ s (by decide) (by decide) (by decide), hbit5 _ rfl⟩
  | plp | rti =>
    exact ⟨_, rfl, fun hi => absurd (by decide) hi, fun hi => absurd (by decide) hi,
      fun hi => absurd (by decide) hi, hbit5 _ rfl⟩
  | _ =>
    obtain ⟨t, ht, hkept⟩ := hothers (by simp)
    exact ⟨t, ht, fun _ => hkept 2 (by decide) (by decide), fun _ => hkept 3 (by decide) (by decide),
      fun _ => hkept 4 (by decide) (by decide), hbit5 t ht⟩

end Sys2Proof.Machine
end

section
/-! SUPPORT. The stack instructions and the calls and traps with their returns (R261, R262, R280 to R287, R300, R301). -/

namespace Sys2Proof.Machine

/-- JSR is `jsrTo` its operand (R261). -/
theorem exec_jsr (addr : Word) (s : State) : exec (.jsr addr) s = .next (jsrTo addr s) := rfl

/-- RTS is `rtsBody` (R262). -/
theorem exec_rts (s : State) : exec .rts s = .next (rtsBody s) := rfl

/-- Settles O37: the two bytes pushed go to two different cells, `SP` being taken modulo 256. -/
theorem subroutineCall : Obligations.SubroutineCall := by
  refine fun addr s => ⟨⟨rfl, rfl⟩, ?_⟩
  simp only [exec_jsr, jsrTo_eq, ← hi8_eq, ← lo8_eq]
  have hne : s.sp ≠ s.sp - 1 := by bv_omega
  exact ⟨_, rfl, MemChanged.stack2 s.mem _ _ hne⟩

/-- Settles O38: the law of RTS's body. -/
theorem subroutineReturn : Obligations.SubroutineReturn :=
  ⟨⟨rfl, rfl⟩, fun s => by rw [exec_rts, rtsBody_eq]⟩

/-- Settles O39: the word pulled is the word pushed, `PC - 1`, and the two moves of `SP` cancel. -/
theorem callThenReturnResumes : Obligations.CallThenReturnResumes := by
  intro addr s hmem
  obtain ⟨-, m, hcall, hcells, -⟩ := subroutineCall addr s
  obtain ⟨-, hbytes⟩ := hcells hmem
  simp only [← hi8_eq, ← lo8_eq, List.forall_mem_cons] at hbytes
  obtain ⟨hhi, hlo, -⟩ := hbytes
  refine ⟨_, hcall, fun u humem husp => ?_⟩
  have hsp1 : u.sp + 1 = s.sp - 1 := by rw [husp]; bv_omega
  have hsp2 : u.sp + 2 = s.sp := by rw [husp]; bv_omega
  have hword : memWord u (stackCell (u.sp + 1)) (stackCell (u.sp + 2)) = s.pc - 1 := by
    rw [hsp1, hsp2]
    exact memWord_of_bytes (humem ▸ hlo) (humem ▸ hhi)
  rw [subroutineReturn.2 u, hword, hsp2, BitVec.sub_add_cancel]

/-- Settles O46: the byte pulled is `P | 0x30`, the word pulled is the address pushed, and the moves of `SP` cancel. -/
theorem breakThenReturnResumes : Obligations.BreakThenReturnResumes := by
  intro s hmem
  obtain ⟨-, htrap⟩ := breakTakesTheTrap
  obtain ⟨m, hbrk, hcells, -⟩ := htrap s
  obtain ⟨-, hbytes⟩ := hcells hmem
  simp only [← hi8_eq, ← lo8_eq, List.forall_mem_cons] at hbytes
  obtain ⟨hhi, hlo, hstatus, -⟩ := hbytes
  refine ⟨_, hbrk, fun u humem husp => ?_⟩
  have hsp1 : u.sp + 1 = s.sp - 2 := by rw [husp]; bv_omega
  have hsp2 : u.sp + 2 = s.sp - 1 := by rw [husp]; bv_omega
  have hsp3 : u.sp + 3 = s.sp := by rw [husp]; bv_omega
  have hword : memWord u (stackCell (u.sp + 2)) (stackCell (u.sp + 3)) = s.pc + 1 := by
    rw [hsp2, hsp3]
    exact memWord_of_bytes (humem ▸ hlo) (humem ▸ hhi)
  have hp : Memory.read u.mem (stackCell (u.sp + 1)) ||| 0x20 = s.p ||| 0x30 := by
    rw [hsp1, humem, hstatus, BitVec.or_assoc]
    rfl
  rw [returnFromInterrupt.2 u, hword, hp, hsp3]

/-- An instruction that runs as a push (R30) writes one stack cell, and `SP` is one less. -/
theorem memChanged_of_push {i : Instr} {v : Byte} {s : State} (hexec : exec i s = .next (push v s)) :
    ∃ m, exec i s = .next { s with mem := m, sp := s.sp - 1 } ∧ MemChanged s.mem [(stackCell s.sp, v)] m :=
  ⟨_, push_eq v s ▸ hexec, MemChanged.stack1 s.mem s.sp v⟩

/-- Settles O40: each of the four runs as a push of its byte. -/
theorem pushInstructions : Obligations.PushInstructions := by
  refine ⟨⟨rfl, rfl⟩, ⟨rfl, rfl⟩, ⟨rfl, rfl⟩, ⟨rfl, rfl⟩, fun s => ?_⟩
  simp only [List.forall_mem_cons]
  exact ⟨memChanged_of_push rfl, memChanged_of_push rfl, memChanged_of_push rfl, memChanged_of_push rfl, nofun⟩

/-- Settles O41: the law of each pull's body. -/
theorem pullInstructions : Obligations.PullInstructions := by
  refine ⟨⟨rfl, rfl⟩, ⟨rfl, rfl⟩, ⟨rfl, rfl⟩, ⟨rfl, rfl⟩, fun s => ?_⟩
  exact ⟨congrArg _ (pullA_eq s), congrArg _ (pullX_eq s), congrArg _ (pullY_eq s), congrArg _ (pullP_eq s)⟩

end Sys2Proof.Machine
end

section
/-! SUPPORT. The bit-subset primitives (R351): the word of a list of bits, and the round trip through `pack`. -/

namespace Sys2Proof.Machine

/-- Bit `i` of the number a list of bits stands for is its `i`-th bit, and 0 past its end. -/
theorem testBit_foldr_bits (bs : List Bool) (i : Nat) :
    (bs.foldr (fun (b : Bool) (n : Nat) => b.toNat + 2 * n) 0).testBit i = bs.getD i false := by
  induction bs generalizing i with
  | nil => simp
  | cons b bs ih =>
    rw [List.foldr_cons, Nat.add_comm, ← Nat.bit_val]
    cases i with
    | zero => rw [Nat.testBit_bit_zero, List.getD_cons_zero]
    | succ i => rw [Nat.testBit_bit_succ, ih, List.getD_cons_succ]

theorem getLsbD_ofBits (w : Nat) (bs : List Bool) {i : Nat} (hi : i < w) :
    (ofBits w bs).getLsbD i = bs.getD i false := by
  rw [ofBits, BitVec.getLsbD_ofNat, testBit_foldr_bits, decide_eq_true hi, Bool.true_and]

/-- The bits of a word make the word. -/
@[simp] theorem ofBits_bitsOf {w : Nat} (v : BitVec w) : ofBits w (bitsOf v) = v := by
  refine BitVec.eq_of_getLsbD_eq fun i hi => ?_
  rw [getLsbD_ofBits w _ hi, List.getD_eq_getElem _ _ (by rwa [length_bitsOf]), getElem_bitsOf]

/-- The word of a list that fits starts with the list's bits. -/
theorem bitsOf_ofBits_eq_append {w : Nat} {bs : List Bool} (h : bs.length ≤ w) :
    ∃ zs, bitsOf (ofBits w bs) = bs ++ zs := by
  have htake : (bitsOf (ofBits w bs)).take bs.length = bs := by
    refine List.ext_getElem (by simpa using h) fun i _ hi => ?_
    rw [List.getElem_take, getElem_bitsOf, getLsbD_ofBits w bs (hi.trans_le h), List.getD_eq_getElem]
  exact ⟨_, (List.take_append_drop bs.length _).symm.trans (congrArg (· ++ _) htake)⟩

theorem length_packBits_le (vs ms : List Bool) : (packBits vs ms).length ≤ vs.length := by
  induction vs, ms using packBits.induct with
  | case1 v vs ms ih => simpa [packBits] using ih
  | case2 v vs m ms hm ih => simp [packBits, hm]; omega
  | case3 vs ms h => simp [packBits]

/-- The bits packed under a mask go back to their places (R351); the mask's ones use up exactly these bits, whatever
follows them. -/
theorem unpackBits_packBits_append {vs ms : List Bool} (zs : List Bool) (h : vs.length = ms.length) :
    unpackBits (packBits vs ms ++ zs) ms = List.zipWith (· && ·) vs ms := by
  induction vs generalizing ms with
  | nil =>
    obtain rfl : ms = [] := List.eq_nil_of_length_eq_zero h.symm
    simp only [unpackBits, List.zipWith_nil_left]
  | cons v vs ih =>
    cases ms with
    | nil => cases h
    | cons m ms =>
      have htail := ih (Nat.succ.inj h)
      cases m with
      | false => rw [List.zipWith_cons_cons, ← htail, Bool.and_false]; rfl
      | true => rw [List.zipWith_cons_cons, ← htail, Bool.and_true]; rfl

/-- Masking is bit by bit. -/
theorem bitsOf_and {w : Nat} (v m : BitVec w) : bitsOf (v &&& m) = List.zipWith (· && ·) (bitsOf v) (bitsOf m) := by
  refine List.ext_getElem (by simp) fun i _ _ => ?_
  simp

/-- Settles O56: the packed word starts with the packed bits, and what follows them is not unpacked. -/
theorem unpackOfPackIsMasking : Obligations.UnpackOfPackIsMasking := by
  intro n v m
  have hfits : (packBits (bitsOf v) (bitsOf m)).length ≤ n := by
    simpa only [length_bitsOf] using length_packBits_le (bitsOf v) (bitsOf m)
  obtain ⟨zs, hpack⟩ := bitsOf_ofBits_eq_append hfits
  rw [unpack, pack, hpack, unpackBits_packBits_append zs (by rw [length_bitsOf, length_bitsOf]), ← bitsOf_and,
    ofBits_bitsOf]

end Sys2Proof.Machine
end

section
/-! SUPPORT. The LCD's commands and transfers (R391 to R404): the address counter's step, and what a data transfer does
in each bank. -/

namespace Sys2Proof.Machine

theorem Lcd.bankSize_eq (l : Lcd) : l.bankSize = if l.bank = .cg then 64 else 80 := by
  rw [Lcd.bankSize]
  cases l.bank <;> rfl

/-- `AC` one step up or down, modulo the bank's size (R397, R401). -/
theorem Lcd.moveAC_eq (l : Lcd) (up : Bool) :
    l.moveAC up = { l with
      ac := if up then BitVec.ofNat 7 ((l.ac.toNat % l.bankSize + 1) % l.bankSize)
        else BitVec.ofNat 7 ((l.ac.toNat % l.bankSize + l.bankSize - 1) % l.bankSize) } := by
  cases up <;> rfl

/-- `SHIFT` one step against a direction (R398). -/
theorem Lcd.moveShift_not (l : Lcd) (dir : Bool) :
    l.moveShift (!dir) = { l with shift := if dir then l.shift - 1 else l.shift + 1 } := by
  cases dir <;> rfl

/-- Bit 3 tells the cursor moves from the display shifts (R397, R398). -/
theorem getLsbD_three_of_shift {d : Byte} (h : 16 ≤ d.toNat) (h' : d.toNat ≤ 31) :
    d.getLsbD 3 = decide (24 ≤ d.toNat) := by
  rw [BitVec.getLsbD, Nat.testBit_eq_decide_div_mod_eq, decide_eq_decide]
  omega

/-- Settles O57: the command of each range of the byte (R392), and its effect. -/
theorem lcdCommandEffects : Obligations.LcdCommandEffects := by
  intro l d k dir size acUp acDown
  have hk : l.writeInstruction d = k.perform (lcdDecode d) := rfl
  rw [hk, lcdDecode_eq]
  refine ⟨fun h => ?nothing, fun h => ?clear, fun h h' => ?home, fun h h' => ?entryMode, fun h h' => ?displayOnOff,
    fun h h' => ?cursorMove, fun h h' => ?displayShift, fun h h' => ?functionSet, fun h h' => ?cgAddress,
    fun h => ?ddAddress⟩
  case nothing =>
    rw [if_pos h]
    rfl
  case clear =>
    rw [if_neg (by omega), if_pos h]
    rfl
  case home =>
    iterate 2 rw [if_neg (by omega)]
    rw [if_pos h']
    rfl
  case entryMode =>
    iterate 3 rw [if_neg (by omega)]
    rw [if_pos h']
    rfl
  case displayOnOff =>
    iterate 4 rw [if_neg (by omega)]
    rw [if_pos h']
    rfl
  case cursorMove =>
    have hbit := getLsbD_three_of_shift h (by omega)
    rw [decide_eq_false (by omega)] at hbit
    iterate 5 rw [if_neg (by omega)]
    rw [if_pos (by omega), hbit]
    exact (Lcd.moveAC_eq _ _).trans (by rw [Lcd.bankSize_eq]; rfl)
  case displayShift =>
    have hbit := getLsbD_three_of_shift (by omega) h'
    rw [decide_eq_true h] at hbit
    iterate 5 rw [if_neg (by omega)]
    rw [if_pos h', hbit]
    exact Lcd.moveShift_not k dir
  case functionSet =>
    iterate 6 rw [if_neg (by omega)]
    rw [if_pos h']
    rfl
  case cgAddress =>
    iterate 7 rw [if_neg (by omega)]
    rw [if_pos h']
    rfl
  case ddAddress =>
    have haddr : (BitVec.ofNat 7 (d.toNat - 128)).toNat = d.toNat - 128 := Nat.mod_eq_of_lt (by omega)
    iterate 8 rw [if_neg (by omega)]
    rw [Lcd.perform, haddr]

/-- The instruction-register read (R402): the busy flag above the seven bits of `AC`. -/
theorem Lcd.readInstruction_toNat (l : Lcd) :
    l.readInstruction.toNat = 128 * (if l.fBusy then 1 else 0) + l.ac.toNat := by
  have h : l.readInstruction.toNat = (BitVec.ofBool l.fBusy ++ l.ac : BitVec 8).toNat := rfl
  rw [h, BitVec.toNat_append, ← Nat.shiftLeft_add_eq_or_of_lt l.ac.isLt, Nat.shiftLeft_eq, Nat.mul_comm]
  cases l.fBusy <;> rfl

/-- `AC` after a step in the direction of `F_ID` in a bank of `m` cells (R401). -/
def Lcd.steppedAC (l : Lcd) (m : Nat) : BitVec 7 :=
  BitVec.ofNat 7 (if l.fId then (l.ac.toNat % m + 1) % m else (l.ac.toNat % m + m - 1) % m)

theorem Lcd.stepAC_eq (l : Lcd) : l.stepAC = { l with ac := l.steppedAC l.bankSize } := rfl

/-- A step of `AC` stays in its bank (R401). -/
theorem Lcd.steppedAC_lt (l : Lcd) {m : Nat} (hm : 0 < m) : (l.steppedAC m).toNat < m := by
  refine (Nat.mod_le _ _).trans_lt ?_
  split
  · exact Nat.mod_lt _ hm
  · exact Nat.mod_lt _ hm

/-- A data write in the display-data bank (R403). -/
theorem Lcd.writeData_dd {l : Lcd} (d : Byte) (h : l.bank = .dd) :
    l.writeData d = { l with
      dr := d
      ac := l.steppedAC 80
      cursor := if l.fId then l.cursor + 1 else l.cursor - 1
      ddram := l.ddram.set (l.ac.toNat % 80) d (Nat.mod_lt _ (by decide))
      shift := if l.fS then (if l.fId then l.shift + 1 else l.shift - 1) else l.shift } := by
  cases hS : l.fS with
  | false | true =>
    simp only [Lcd.writeData, Lcd.setCell, h, Lcd.moveCursor, hS, Lcd.stepAC_eq]
    rfl

/-- A data read in the display-data bank (R404). -/
theorem Lcd.readData_dd {l : Lcd} (h : l.bank = .dd) :
    l.readData = (l.ddram[l.ac.toNat % 80]'(Nat.mod_lt _ (by decide)), { l with
      dr := l.ddram[l.ac.toNat % 80]'(Nat.mod_lt _ (by decide))
      ac := l.steppedAC 80
      cursor := if l.fId then l.cursor + 1 else l.cursor - 1 }) := by
  simp only [Lcd.readData, Lcd.cell, h, Lcd.stepAC_eq]
  rfl

/-- A data write in the character-generator bank (R403). -/
theorem Lcd.writeData_cg {l : Lcd} (d : Byte) (h : l.bank = .cg) :
    l.writeData d = { l with
      dr := d
      ac := l.steppedAC 64
      cgram := l.cgram.set (l.ac.toNat % 64) d (Nat.mod_lt _ (by decide)) } := by
  simp only [Lcd.writeData, Lcd.setCell, h, Lcd.stepAC_eq]
  rfl

/-- A data read in the character-generator bank (R404). -/
theorem Lcd.readData_cg {l : Lcd} (h : l.bank = .cg) :
    l.readData = (l.cgram[l.ac.toNat % 64]'(Nat.mod_lt _ (by decide)), { l with
      dr := l.cgram[l.ac.toNat % 64]'(Nat.mod_lt _ (by decide))
      ac := l.steppedAC 64 }) := by
  simp only [Lcd.readData, Lcd.cell, h, Lcd.stepAC_eq]
  rfl

/-- Settles O58: the instruction-register read, and the data transfers of the two banks. -/
theorem lcdTransfers : Obligations.LcdTransfers := by
  intro l d
  refine ⟨⟨l.readInstruction, rfl, l.readInstruction_toNat⟩, fun hbank => ?dd, fun hbank => ?cg⟩
  case dd =>
    rw [Lcd.writeData_dd d hbank, Lcd.readData_dd hbank]
    exact ⟨rfl, rfl, l.steppedAC_lt (by decide), l.steppedAC_lt (by decide)⟩
  case cg =>
    rw [Lcd.writeData_cg d hbank, Lcd.readData_cg hbank]
    exact ⟨rfl, rfl, l.steppedAC_lt (by decide), l.steppedAC_lt (by decide)⟩

end Sys2Proof.Machine
end
